-- ==== Sys2Proof/Word.lean ====
section
/-! DEFINITION. The word types of the WG2408 and the list of its initiator ports. -/

namespace Sys2Proof

/-- A byte of a management frame. -/
abbrev Byte := BitVec 8

/-- A 2-byte number: a setting's value, FRAME_NUMBER. -/
abbrev Half := BitVec 16

/-- A 32-bit byte address, counter or 4-byte element. -/
abbrev Word := BitVec 32

/-- One phase of the 8-byte memory path: an element in the lowest bytes (R117). -/
abbrev Elem := BitVec 64

/-- Initiator port p is IPp, 0 to 7 (spec/00, Conventions, Ports). -/
abbrev Port := Fin 8

/-- The eight ports in ascending order. -/
def Port.all : List Port := [0, 1, 2, 3, 4, 5, 6, 7]

end Sys2Proof
end

