-- ==== Sys2Proof/Syntax.lean ====
section
/-! DEFINITION. The commands of the WG2408: one constructor of Instr for each row of spec/opcode_table.json. -/

namespace Sys2Proof

/-- The status a response of the memory controller carries (R136). -/
inductive MemStatus where
  | ok
  | memerr
  deriving DecidableEq, Repr

/-- The seven kinds of request (R115). -/
inductive Kind where
  | read
  | write
  | linkedRead
  | conditionalWrite
  | swap
  | boundedAdd
  | linkDrop
  deriving DecidableEq, Repr

/-- One constructor for each row of spec/opcode_table.json. A happening of a pin, of a port or of a timer carries the
port or the levels it needs; a request carries the fields of its request phase and its write-data phases (R115, R117);
a management command carries its argument bytes in the order of R168 and `fill`, the number of 0x00 bytes that follow
them in its frame (R163). -/
inductive Instr where
  /-- RESET_N_ASSERTED (R41). -/
  | resetNAsserted
  /-- RESET_N_RELEASED (R41); `mselLow`: MSEL_n is low at the release (R167). -/
  | resetNReleased (mselLow : Bool)
  /-- PRST_N_ASSERTED (R127). -/
  | prstNAsserted (p : Port)
  /-- PRST_N_RELEASED (R128). -/
  | prstNReleased (p : Port)
  /-- SYNC_IN_PULSE (R47, R49). -/
  | syncInPulse
  /-- SYNC_WAIT_TIMER_EXPIRY (R48). -/
  | syncWaitTimerExpiry
  /-- MAINT_REQ_ASSERTED (R145). -/
  | maintReqAsserted
  /-- MAINT_REQ_WITHDRAWN (R146). -/
  | maintReqWithdrawn
  /-- MAINT_GRANT (R145). -/
  | maintGrant
  /-- SLOT_END (R44). -/
  | slotEnd
  /-- ISSUE_DECISION (R27): one beat time. -/
  | issueDecision
  /-- ATOMIC_WRITE_BEAT (R107): one beat time, in which an owed atomic write issues. -/
  | atomicWriteBeat
  /-- MEMORY_RESPONSE (R136): the status, and the element a read beat's response carries. -/
  | memoryResponse (status : MemStatus) (element : Elem)
  /-- WEDGE (R140). -/
  | wedge
  /-- RESPONSE_DELIVERY (R122). -/
  | responseDelivery (p : Port)
  /-- LINK_DROP_TAKES_EFFECT (R93). -/
  | linkDropTakesEffect (p : Port)
  /-- PORT_RESET_END (R128). -/
  | portResetEnd (p : Port)
  /-- WITHHELD_REQUEST_TAKEN (R120). -/
  | withheldRequestTaken (p : Port)
  /-- READ (R118). -/
  | read (p : Port) (size : BitVec 3) (beats : BitVec 5) (addr : Word)
  /-- WRITE (R118); the beat count is the number of data phases it brings (R115). -/
  | write (p : Port) (size : BitVec 3) (addr : Word) (data : List Elem)
  /-- LINKED_READ (R79). -/
  | linkedRead (p : Port) (size : BitVec 3) (addr : Word)
  /-- CONDITIONAL_WRITE (R83). -/
  | conditionalWrite (p : Port) (size : BitVec 3) (addr : Word) (data : Elem)
  /-- SWAP (R102). -/
  | swap (p : Port) (size : BitVec 3) (addr : Word) (value : Elem)
  /-- BOUNDED_ADD (R103): the delta phase and the ceiling phase. -/
  | boundedAdd (p : Port) (size : BitVec 3) (addr : Word) (delta ceiling : Elem)
  /-- LINK_DROP (R92). -/
  | linkDrop (p : Port)
  /-- EMPTY_FRAME (R163, case 1). -/
  | emptyFrame
  /-- FILL_FRAME (R163, case 3): that many 0x00 bytes. -/
  | fillFrame (bytes : Nat)
  /-- BAD_FRAME (R163, cases 2, 4, 6, 7): the bits of the frame as sampled. -/
  | badFrame (bits : List Bool)
  /-- BAD_COMMAND (R163, case 5): the bits of the frame as sampled. -/
  | badCommand (bits : List Bool)
  /-- READ_SETTING (R171). -/
  | readSetting (number : Byte) (fill : Nat)
  /-- WRITE_SETTING of setting 0 (R46). -/
  | writeSyncMode (value : Half) (fill : Nat)
  /-- WRITE_SETTING of setting 1 (R48). -/
  | writeSyncWait (value : Half) (fill : Nat)
  /-- WRITE_SETTING of setting 2 (R62). -/
  | writeLinkLimit (value : Half) (fill : Nat)
  /-- WRITE_SETTING of setting 3 (R63). -/
  | writeLinkAgeLimit (value : Half) (fill : Nat)
  /-- WRITE_SETTING of setting 4 (R61). -/
  | writeGranule (value : Half) (fill : Nat)
  /-- WRITE_SETTING of setting 5 (R118). -/
  | writeMemSize (value : Half) (fill : Nat)
  /-- WRITE_SETTING of setting 6 (R135). -/
  | writeMemTimeout (value : Half) (fill : Nat)
  /-- WRITE_SETTING of setting 7 (R131). -/
  | writeWaitLimit (value : Half) (fill : Nat)
  /-- WRITE_SETTING of setting 8 (R35). -/
  | writeSplitOk (value : Half) (fill : Nat)
  /-- WRITE_SETTING of setting 9 (R151). -/
  | writeNoticeMask (value : Half) (fill : Nat)
  /-- WRITE_SLOT (R9, R10). -/
  | writeSlot (index kind owner length donate : Byte) (fill : Nat)
  /-- READ_SLOT (R14). -/
  | readSlot (table index : Byte) (fill : Nat)
  /-- SET_FRAME_LEN (R12). -/
  | setFrameLen (length : Byte) (fill : Nat)
  /-- COMMIT_TABLE (R54). -/
  | commitTable (fill : Nat)
  /-- CANCEL_COMMIT (R55). -/
  | cancelCommit (fill : Nat)
  /-- COPY_ACTIVE (R13). -/
  | copyActive (fill : Nat)
  /-- START (R50). -/
  | start (fill : Nat)
  /-- STOP (R51). -/
  | stop (fill : Nat)
  /-- PORT_ENABLE (R126). -/
  | portEnable (port : Byte) (fill : Nat)
  /-- PORT_DISABLE (R125). -/
  | portDisable (port : Byte) (fill : Nat)
  /-- PORT_RESET (R127). -/
  | portReset (port : Byte) (fill : Nat)
  /-- READ_PORT (R158). -/
  | readPort (port : Byte) (fill : Nat)
  /-- READ_LINK (R77). -/
  | readLink (position : Byte) (fill : Nat)
  /-- PURGE_LINKS (R76). -/
  | purgeLinks (port : Byte) (fill : Nat)
  /-- PEEK_NOTICE (R153). -/
  | peekNotice (fill : Nat)
  /-- TAKE_NOTICE (R154). -/
  | takeNotice (fill : Nat)
  /-- RECOVER (R143). -/
  | recover (fill : Nat)
  /-- RECOVER_FORCE (R144). -/
  | recoverForce (fill : Nat)
  /-- CLEAR_STATE (R160). -/
  | clearState (fill : Nat)
  /-- READ_GATE (R159). -/
  | readGate (fill : Nat)
  /-- WRITE_SETTING naming any number (R172); the table's row is the one whose number is over 9. -/
  | writeSetting (number : Byte) (value : Half) (fill : Nat)
  deriving DecidableEq, Repr

end Sys2Proof
end

