-- ==== Sys2Proof/Decode.lean ====
section
/-! DEFINITION. Reading and writing the two encodings the spec gives: the management frame (R162, R163, R168) and the
request phase of an initiator port (R115, R117). No row of spec/opcode_table.json has bits of its own, so
`decodeTableWord` answers none (log 10). -/

namespace Sys2Proof

/-! ### Bytes and bits of a management frame -/

/-- A byte as it is shifted: most significant bit first (R162). -/
def byteBits (b : Byte) : List Bool :=
  [b.getLsbD 7, b.getLsbD 6, b.getLsbD 5, b.getLsbD 4, b.getLsbD 3, b.getLsbD 2, b.getLsbD 1, b.getLsbD 0]

/-- The byte whose bits arrive in this order, most significant first (R162). -/
def byteOfBits (b7 b6 b5 b4 b3 b2 b1 b0 : Bool) : Byte :=
  BitVec.ofNat 8 (128 * b7.toNat + 64 * b6.toNat + 32 * b5.toNat + 16 * b4.toNat + 8 * b3.toNat + 4 * b2.toNat +
    2 * b1.toNat + b0.toNat)

/-- The whole bytes of a run of bits, eight bits to a byte (R162); bits short of a byte are left out. -/
def bytesOfBits : List Bool → List Byte
  | b7 :: b6 :: b5 :: b4 :: b3 :: b2 :: b1 :: b0 :: rest => byteOfBits b7 b6 b5 b4 b3 b2 b1 b0 :: bytesOfBits rest
  | _ => []

/-- The bits of a run of bytes, in the order in which they are shifted. -/
def bitsOfBytes (bytes : List Byte) : List Bool := bytes.flatMap byteBits

/-- A 2-byte field, most significant byte first (R162). -/
def half (hi lo : Byte) : Half := hi ++ lo

/-- The two bytes of a 2-byte field, most significant first (R162). -/
def halfBytes (v : Half) : List Byte := [v.extractLsb' 8 8, v.extractLsb' 0 8]

/-! ### The frame classes -/

/-- The command codes and their frame lengths (R168): the code byte and the argument bytes, with no fill. -/
def frameLength (code : Byte) : Option Nat :=
  match code.toNat with
  | 0x01 => some 2
  | 0x02 => some 4
  | 0x10 => some 6
  | 0x11 => some 3
  | 0x12 => some 2
  | 0x13 => some 1
  | 0x14 => some 1
  | 0x15 => some 1
  | 0x20 => some 1
  | 0x21 => some 1
  | 0x30 => some 2
  | 0x31 => some 2
  | 0x32 => some 2
  | 0x33 => some 2
  | 0x40 => some 2
  | 0x41 => some 2
  | 0x50 => some 1
  | 0x51 => some 1
  | 0x60 => some 1
  | 0x61 => some 1
  | 0x70 => some 1
  | 0x71 => some 1
  | _ => none

/-- The outcome of R163 for a frame. BAD_FRAME and BAD_COMMAND carry the code their sequence byte takes. -/
inductive FrameClass where
  | empty
  | fill (bytes : Nat)
  | badFrame (code : Byte)
  | badCommand (code : Byte)
  | command (code : Byte) (args : List Byte) (fill : Nat)
  deriving DecidableEq, Repr

/-- Cases 3 to 8 of R163, on a frame of whole bytes that is not empty. -/
def classifyBytes (code : Byte) (rest : List Byte) : FrameClass :=
  if code = 0 then
    if rest.all (· == 0) then .fill (rest.length + 1) else .badFrame 0
  else
    match frameLength code with
    | none => .badCommand code
    | some len =>
      if rest.length + 1 < len then .badFrame code
      else if (rest.drop (len - 1)).all (· == 0) then
        .command code (rest.take (len - 1)) (rest.length + 1 - len)
      else .badFrame code

/-- The code carried by a frame whose number of bits is not a multiple of 8: its first byte, or 0 for a frame of 1 to 7
bits (R163). -/
def firstCode (bits : List Bool) : Byte :=
  match bytesOfBits bits with
  | code :: _ => code
  | [] => 0

/-- The class of the frame just ended, from the bits sampled between the fall and the rise of MSEL_n (R163). -/
def classifyFrame (bits : List Bool) : FrameClass :=
  if bits = [] then .empty
  else if bits.length % 8 ≠ 0 then .badFrame (firstCode bits)
  else
    match bytesOfBits bits with
    | code :: rest => classifyBytes code rest
    | [] => .empty

/-- WRITE_SETTING's command by the setting it names (R170): settings 0 to 9 have a row each, any other number is the row
WRITE_SETTING. -/
def writeSettingCommand (number : Byte) (value : Half) (fill : Nat) : Instr :=
  match number.toNat with
  | 0 => .writeSyncMode value fill
  | 1 => .writeSyncWait value fill
  | 2 => .writeLinkLimit value fill
  | 3 => .writeLinkAgeLimit value fill
  | 4 => .writeGranule value fill
  | 5 => .writeMemSize value fill
  | 6 => .writeMemTimeout value fill
  | 7 => .writeWaitLimit value fill
  | 8 => .writeSplitOk value fill
  | 9 => .writeNoticeMask value fill
  | _ => .writeSetting number value fill

/-- The command a code and its argument bytes spell (R168); none for a code or a number of arguments R168 does not
give. -/
def commandOf (code : Byte) (args : List Byte) (fill : Nat) : Option Instr :=
  match code.toNat, args with
  | 0x01, [n] => some (.readSetting n fill)
  | 0x02, [n, hi, lo] => some (writeSettingCommand n (half hi lo) fill)
  | 0x10, [i, k, o, l, d] => some (.writeSlot i k o l d fill)
  | 0x11, [t, i] => some (.readSlot t i fill)
  | 0x12, [l] => some (.setFrameLen l fill)
  | 0x13, [] => some (.commitTable fill)
  | 0x14, [] => some (.cancelCommit fill)
  | 0x15, [] => some (.copyActive fill)
  | 0x20, [] => some (.start fill)
  | 0x21, [] => some (.stop fill)
  | 0x30, [p] => some (.portEnable p fill)
  | 0x31, [p] => some (.portDisable p fill)
  | 0x32, [p] => some (.portReset p fill)
  | 0x33, [p] => some (.readPort p fill)
  | 0x40, [k] => some (.readLink k fill)
  | 0x41, [p] => some (.purgeLinks p fill)
  | 0x50, [] => some (.peekNotice fill)
  | 0x51, [] => some (.takeNotice fill)
  | 0x60, [] => some (.recover fill)
  | 0x61, [] => some (.recoverForce fill)
  | 0x70, [] => some (.clearState fill)
  | 0x71, [] => some (.readGate fill)
  | _, _ => none

/-- The command a frame's bits spell, whatever they are (R163): every frame is exactly one row of the table. -/
def decodeFrame (bits : List Bool) : Instr :=
  match classifyFrame bits with
  | .empty => .emptyFrame
  | .fill n => .fillFrame n
  | .badFrame _ => .badFrame bits
  | .badCommand _ => .badCommand bits
  | .command code args fill =>
    match commandOf code args fill with
    | some i => i
    | none => .badFrame bits

/-- The code byte and argument bytes of a management command, and its fill (R168); none for a command that is no
executed frame. -/
def frameBytes : Instr → Option (List Byte × Nat)
  | .readSetting n f => some ([0x01, n], f)
  | .writeSyncMode v f => some ([0x02, 0] ++ halfBytes v, f)
  | .writeSyncWait v f => some ([0x02, 1] ++ halfBytes v, f)
  | .writeLinkLimit v f => some ([0x02, 2] ++ halfBytes v, f)
  | .writeLinkAgeLimit v f => some ([0x02, 3] ++ halfBytes v, f)
  | .writeGranule v f => some ([0x02, 4] ++ halfBytes v, f)
  | .writeMemSize v f => some ([0x02, 5] ++ halfBytes v, f)
  | .writeMemTimeout v f => some ([0x02, 6] ++ halfBytes v, f)
  | .writeWaitLimit v f => some ([0x02, 7] ++ halfBytes v, f)
  | .writeSplitOk v f => some ([0x02, 8] ++ halfBytes v, f)
  | .writeNoticeMask v f => some ([0x02, 9] ++ halfBytes v, f)
  | .writeSetting n v f => some ([0x02, n] ++ halfBytes v, f)
  | .writeSlot i k o l d f => some ([0x10, i, k, o, l, d], f)
  | .readSlot t i f => some ([0x11, t, i], f)
  | .setFrameLen l f => some ([0x12, l], f)
  | .commitTable f => some ([0x13], f)
  | .cancelCommit f => some ([0x14], f)
  | .copyActive f => some ([0x15], f)
  | .start f => some ([0x20], f)
  | .stop f => some ([0x21], f)
  | .portEnable p f => some ([0x30, p], f)
  | .portDisable p f => some ([0x31, p], f)
  | .portReset p f => some ([0x32, p], f)
  | .readPort p f => some ([0x33, p], f)
  | .readLink k f => some ([0x40, k], f)
  | .purgeLinks p f => some ([0x41, p], f)
  | .peekNotice f => some ([0x50], f)
  | .takeNotice f => some ([0x51], f)
  | .recover f => some ([0x60], f)
  | .recoverForce f => some ([0x61], f)
  | .clearState f => some ([0x70], f)
  | .readGate f => some ([0x71], f)
  | _ => none

/-- The bits of the frame a management row stands for: code, arguments and fill (R162, R168), fill frames (R163) and the
bits a malformed frame carries; none for a row that is no frame. -/
def encodeFrame (i : Instr) : Option (List Bool) :=
  match i with
  | .emptyFrame => some []
  | .fillFrame n => some (bitsOfBytes (List.replicate n 0))
  | .badFrame bits => some bits
  | .badCommand bits => some bits
  | i =>
    match frameBytes i with
    | some (bytes, f) => some (bitsOfBytes (bytes ++ List.replicate f 0))
    | none => none

/-! ### Requests -/

/-- The request phase of an initiator port (R117). -/
structure RequestPhase where
  direction : Bool
  link : Bool
  conditional : Bool
  atomic : Bool
  size : BitVec 3
  beats : BitVec 5
  addr : Word
  deriving DecidableEq, Repr

/-- The kind the four attribute bits name, by the first case of R117 that matches. -/
def RequestPhase.kind (r : RequestPhase) : Kind :=
  if r.atomic then (if r.conditional then .boundedAdd else .swap)
  else if r.link && r.conditional then .linkDrop
  else if r.link then .linkedRead
  else if r.conditional then .conditionalWrite
  else if r.direction then .write
  else .read

/-- The request a request phase and its write-data phases present at port p (R115, R117). None when the number of
write-data phases is not the one the kind and the beat count call for: the request is then not complete. -/
def decodeRequest (p : Port) (r : RequestPhase) (data : List Elem) : Option Instr :=
  match r.kind, data with
  | .read, [] => some (.read p r.size r.beats r.addr)
  | .write, d => if d.length = r.beats.toNat then some (.write p r.size r.addr d) else none
  | .linkedRead, [] => some (.linkedRead p r.size r.addr)
  | .conditionalWrite, [d] => some (.conditionalWrite p r.size r.addr d)
  | .swap, [v] => some (.swap p r.size r.addr v)
  | .boundedAdd, [d, c] => some (.boundedAdd p r.size r.addr d c)
  | .linkDrop, [] => some (.linkDrop p)
  | _, _ => none

/-- The phases of a request (R117), with the fields its kind does not use at 0; none for a command that is no request. -/
def encodeRequest : Instr → Option (Port × RequestPhase × List Elem)
  | .read p s b a => some (p, ⟨false, false, false, false, s, b, a⟩, [])
  | .write p s a d => some (p, ⟨true, false, false, false, s, BitVec.ofNat 5 d.length, a⟩, d)
  | .linkedRead p s a => some (p, ⟨false, true, false, false, s, 0, a⟩, [])
  | .conditionalWrite p s a d => some (p, ⟨true, false, true, false, s, 0, a⟩, [d])
  | .swap p s a v => some (p, ⟨true, false, false, true, s, 0, a⟩, [v])
  | .boundedAdd p s a d c => some (p, ⟨true, false, true, true, s, 0, a⟩, [d, c])
  | .linkDrop p => some (p, ⟨false, true, true, false, 0, 0, 0⟩, [])
  | _ => none

/-! ### The host's words -/

/-- The command a word of the opcode table spells. The table gives no row any bits, so no word spells one (log 10). -/
def decodeTableWord (_nbits _w : Nat) : Option Instr := none

end Sys2Proof
end

