-- ==== Sys2Proof/Config.lean ====
section
/-! DEFINITION. What the part fixes (depths of its queues) and what the spec leaves open (free values). -/

namespace Sys2Proof.Config

/-- A request queue holds up to four entries (R119). -/
def queueDepth : Nat := 4

/-- The outstanding list never holds more than 16 beats (R134). -/
def outstandingMax : Nat := 16

/-- The link table holds 12 entries (R58). -/
def linkEntries : Nat := 12

/-- The notice queue holds up to 8 records (R148). -/
def noticeDepth : Nat := 8

/-- The longest burst, in beats (R115, R118). -/
def burstMax : Nat := 16

/-- FREE VALUE (log 8). R152 leaves the order of raises that fall together open ('either may be taken first').
The n-th time several ports raise STARVED at one frame mark, `freeOrder n` names the permutation in which they are
taken. It has no body, so nothing can be proved of the order. -/
opaque freeOrder : Nat → Nat

/-- FREE VALUE (log 22). Whether the slot of an OWNED record that names a HALTING port is handled as one whose owner is
ready when its head fits (R18, R21, R124, R125) or as one whose owner is not ready (R10): the rules differ and the spec
gives no ruling. It has no body, so what is proved holds under either reading. -/
opaque haltingOwnerReady : Bool

end Sys2Proof.Config
end

