-- ==== Sys2Proof/Machine/State.lean ====
section
/-! DEFINITION. The state of the WG2408 as plain data, the reasons a step can stop, and the state after reset. -/

namespace Sys2Proof.Machine

/-! ### Slot tables (spec/01) -/

/-- A slot record (R1). An OWNED record holds an owner and a donate value; a POOL or QUIET record holds neither. -/
inductive SlotRecord where
  | owned (owner : Port) (length : Nat) (donate : Bool)
  | pool (length : Nat)
  | quiet (length : Nat)
  deriving DecidableEq, Repr

/-- A slot table (R3): 32 records and FRAME_LEN. -/
structure SlotTable where
  slots : Vector SlotRecord 32
  frameLen : Nat
  deriving DecidableEq, Repr

/-- The default table (R7). -/
def SlotTable.default : SlotTable :=
  { slots := (Vector.replicate 32 (.quiet 1)).set 0 (.pool 16), frameLen := 1 }

/-! ### Scheduler (R39) -/

inductive SchedState where
  | stopped
  | running
  | draining
  | gap
  deriving DecidableEq, Repr

inductive SyncMode where
  | internal
  | external
  deriving DecidableEq, Repr

inductive CommitState where
  | none
  | pending
  deriving DecidableEq, Repr

/-- The scheduler's state (R39), the record the slot in progress keeps (R5) and that slot's grantee (R20). `record` is
none exactly while no slot is in progress. -/
structure Scheduler where
  state : SchedState
  slot : Fin 32
  budget : Nat
  record : Option SlotRecord
  grantee : Option Port
  frameNumber : Half
  commit : CommitState
  timer : Option Nat
  syncInForce : SyncMode
  poolNext : Port
  deriving DecidableEq, Repr

/-! ### Initiator ports (spec/07) -/

/-- A request record (R115). `data` holds the write-data phases: one element per beat of a WRITE, the element of a
CONDITIONAL WRITE, the value of a SWAP, the delta and the ceiling of a BOUNDED ADD. -/
structure Request where
  kind : Kind
  addr : Word
  size : BitVec 3
  beats : Nat
  data : List Elem
  deriving DecidableEq, Repr

/-- The reasons of a REFUSED response (R116, R118). -/
inductive RefuseReason where
  | size
  | align
  | beats
  | range
  | boundary
  | closed
  deriving DecidableEq, Repr

/-- The outcome of an entry once it is known: the status and reason of its response (R116). -/
inductive Verdict where
  | done
  | noLink
  | width
  | memerr
  | timeout
  deriving DecidableEq, Repr

/-- The states of a queue entry (R119). READY_TO_ANSWER carries the outcome, REFUSAL its reason. -/
inductive EntryState where
  | waiting
  | partly
  | issued
  | ready (v : Verdict)
  | refusal (r : RefuseReason)
  deriving DecidableEq, Repr

/-- A queue entry (R119). `id` is its identity (log 11); `oldValue` and `clamped` are what the update engine passes to it
(R101); `firstBad` is the index of its first beat answered MEMERR (R136). -/
structure Entry where
  id : Nat
  req : Request
  state : EntryState
  nextBeat : Nat
  data : List Elem
  firstBad : Option Nat
  oldValue : Option Word
  clamped : Option Bool
  marked : Bool
  deriving DecidableEq, Repr

/-- The status and reason of a response record (R116). -/
inductive Status where
  | outcome (v : Verdict)
  | refused (r : RefuseReason)
  deriving DecidableEq, Repr

/-- A response record (R116). -/
structure Response where
  status : Status
  data : List Elem
  firstBad : Option Nat
  oldValue : Option Word
  clamped : Option Bool
  deriving DecidableEq, Repr

inductive PortState where
  | opened
  | halting
  | disabled
  | resetting
  deriving DecidableEq, Repr

/-- The causes a loss record names (R74). -/
inductive LossCause where
  | overwritten
  | selfWrite
  | width
  | replaced
  | evicted
  | aged
  | dropped
  | faulted
  | purged
  deriving DecidableEq, Repr

/-- One initiator port: its state and enable setting (R124), its PRST_n line (`prst`, true while asserted), the request
presented and not yet taken (R120), its queue (R119), wait counter, frame watch (`watching`) and STARVED episode
(`starved`, R130, R131), its counters and loss record (R156), and the response it last delivered (log 12). -/
structure PortRec where
  state : PortState
  enabled : Bool
  prst : Bool
  presented : Option Request
  queue : List Entry
  waitCounter : Nat
  watching : Bool
  starved : Bool
  granted : Word
  slack : Word
  condOk : Word
  condFail : Word
  refused : Word
  clampCount : Half
  lastLoss : Option LossCause
  lossCount : Word
  lastResponse : Option Response
  deriving DecidableEq, Repr

/-! ### Links, the atomic record and the memory port -/

/-- A link (R58). `openedBy` is the number of the beat that last opened or refreshed it (R68, log 11). -/
structure Link where
  holder : Port
  base : Word
  width : Nat
  age : Nat
  openedBy : Nat
  deriving DecidableEq, Repr

/-- The operand of an atomic update (R101). -/
inductive AtomicOp where
  | swap (value : Word)
  | boundedAdd (delta ceiling : Word)
  deriving DecidableEq, Repr

/-- The phase of the atomic record (R101). -/
inductive AtomicPhase where
  | reading
  | writeOwed (oldValue newValue : Word) (clamped : Option Bool)
  deriving DecidableEq, Repr

/-- The atomic record while it is not empty (R101). -/
structure AtomicRecord where
  port : Port
  entry : Nat
  addr : Word
  op : AtomicOp
  phase : AtomicPhase
  overhanging : Bool
  deriving DecidableEq, Repr

inductive BeatKind where
  | read
  | write
  | linkedRead
  | conditionalWrite
  | atomicRead
  | atomicWrite
  deriving DecidableEq, Repr

/-- A record of the outstanding list (R133). `serial` is the beat's own number (log 11). -/
structure BeatRecord where
  port : Port
  entry : Nat
  index : Nat
  kind : BeatKind
  addr : Word
  deadline : Option Nat
  serial : Nat
  deriving DecidableEq, Repr

/-- What a beat carries to the memory controller (R134): direction, address, size in bytes and, for a write beat, its
element. -/
structure MemBeat where
  write : Bool
  addr : Word
  bytes : Nat
  element : Option Elem
  deriving DecidableEq, Repr

inductive MemState where
  | ready
  | wedged
  deriving DecidableEq, Repr

/-- The memory port (R133) with the MAINT_REQ line, and whether it has been WEDGED since the last frame mark (R130). -/
structure MemPort where
  state : MemState
  outstanding : List BeatRecord
  owed : Nat
  quietOpen : Bool
  maintGrant : Bool
  windowGiven : Bool
  maintReq : Bool
  wedgedSinceMark : Bool
  deriving DecidableEq, Repr

/-! ### Notices, counters, settings, management port -/

/-- A notice with the fields its kind has besides frame number and repeat (R147). -/
inductive Notice where
  | starved (p : Port)
  | memFault (p : Port) (addr : Word)
  | wedged (count : Nat)
  | syncEarly
  | syncMissing
  | tableSwapped
  | portReady (p : Port)
  deriving DecidableEq, Repr

/-- A notice record (R147). -/
structure NoticeRecord where
  notice : Notice
  frame : Half
  repeats : Nat
  deriving DecidableEq, Repr

/-- The notice queue, oldest first, NOTICE_LOST and the NOTICE output (R148, R150, R151). -/
structure NoticeQueue where
  records : List NoticeRecord
  lost : Byte
  line : Bool
  deriving DecidableEq, Repr

/-- The gate-wide counters of R157 that no other part of the state holds. -/
structure GateCounters where
  poolSlack : Word
  earlySync : Word
  missingSync : Word
  overhangCount : Word
  maintWindows : Word
  strayResponses : Word
  deriving DecidableEq, Repr

/-- The ten settings (R170). -/
structure Settings where
  syncMode : SyncMode
  syncWait : Nat
  linkLimit : Nat
  linkAgeLimit : Nat
  granule : Nat
  memSizeCode : Nat
  memTimeout : Nat
  waitLimit : Nat
  splitOk : Byte
  noticeMask : Byte
  deriving DecidableEq, Repr

/-- The status byte of a management response (R166). -/
inductive MgmtStatus where
  | accepted
  | pending
  | busy
  | badArgument
  | badCommand
  | badFrame
  deriving DecidableEq, Repr

/-- A response of the management port (R161): status byte, sequence byte, data bytes. -/
structure MgmtResponse where
  status : MgmtStatus
  sequence : Byte
  data : List Byte
  deriving DecidableEq, Repr

/-- The management port's frame in progress (R161): none, or the bits shifted in since MSEL_n fell; `discarding` is a
frame whose bits are thrown away as they come, because MSEL_n was low at the release of RESET_N (R167). -/
inductive FrameInProgress where
  | none
  | shifting (bits : List Bool)
  | discarding
  deriving DecidableEq, Repr

/-- The management port (R161), and the bits MDO carried in the latest frame taken (R162, log 12). -/
structure Mgmt where
  frame : FrameInProgress
  response : MgmtResponse
  readout : Nat
  seqCount : BitVec 4
  mdo : List Bool
  deriving DecidableEq, Repr

/-! ### The machine -/

/-- The state of the WG2408 and the queue of commands that wait. `resetAsserted` is the RESET_N line; `memBeat` the beat
driven in the latest beat time, `frameMarks` the FRAME_MARK pulses since the last pin reset (log 12); `nextId` the next
identity (log 11); `freeCount` the number of free choices used (log 8). -/
structure State where
  pending : List Instr
  resetAsserted : Bool
  active : SlotTable
  shadow : SlotTable
  sched : Scheduler
  ports : Vector PortRec 8
  links : List Link
  atomic : Option AtomicRecord
  mem : MemPort
  memBeat : Option MemBeat
  notices : NoticeQueue
  counters : GateCounters
  frameMarks : Nat
  settings : Settings
  mgmt : Mgmt
  nextId : Nat
  freeCount : Nat
  deriving DecidableEq, Repr

/-- The reasons a step can stop with a fault: none. The part never stops (INVENTORY, Faults): its errors are responses,
notices and the WEDGED state. -/
inductive Fault where
  deriving DecidableEq, Repr

/-- The reasons a step can be refused. -/
inductive Refusal where
  /-- Raised by exec for a row that has no meaning yet: none. Safe. -/
  | notModelled (mnemonic : String)
  /-- Raised by BAD_FRAME and BAD_COMMAND when the bits they carry are not a frame of that class under R163: such a term
  is no command of the table (`Instr.wf` is false of it). Safe: nothing is claimed of it (log 19). -/
  | notThisFrame
  deriving DecidableEq, Repr

/-! ### Reset -/

/-- A port while RESET_N is asserted (R124, R130, R131, R156): OPEN and ENABLED, its queue empty. Its PRST_n line is not
asserted and no request is presented (DESIGN CHOICE, log 7). -/
def PortRec.reset : PortRec :=
  { state := .opened, enabled := true, prst := false, presented := none, queue := [], waitCounter := 0,
    watching := false, starved := false, granted := 0, slack := 0, condOk := 0, condFail := 0, refused := 0,
    clampCount := 0, lastLoss := none, lossCount := 0, lastResponse := none }

/-- The scheduler while RESET_N is asserted (R39). -/
def Scheduler.reset : Scheduler :=
  { state := .running, slot := 0, budget := 0, record := none, grantee := none, frameNumber := 0, commit := .none,
    timer := none, syncInForce := .internal, poolNext := 0 }

/-- The memory port while RESET_N is asserted (R133); MAINT_REQ is not asserted (DESIGN CHOICE, log 7). -/
def MemPort.reset : MemPort :=
  { state := .ready, outstanding := [], owed := 0, quietOpen := false, maintGrant := false, windowGiven := false,
    maintReq := false, wedgedSinceMark := false }

/-- The settings after a pin reset (R170). -/
def Settings.reset : Settings :=
  { syncMode := .internal, syncWait := 4096, linkLimit := 1, linkAgeLimit := 0, granule := 32, memSizeCode := 12,
    memTimeout := 1024, waitLimit := 8, splitOk := 255, noticeMask := 0 }

/-- The management port while RESET_N is asserted (R161). -/
def Mgmt.reset : Mgmt :=
  { frame := .none, response := ⟨.accepted, 0, []⟩, readout := 0, seqCount := 0, mdo := [] }

/-- The notice queue after a pin reset (R148, R150, R151). -/
def NoticeQueue.reset : NoticeQueue := { records := [], lost := 0, line := false }

/-- The gate-wide counters after a pin reset (R157). -/
def GateCounters.reset : GateCounters :=
  { poolSlack := 0, earlySync := 0, missingSync := 0, overhangCount := 0, maintWindows := 0, strayResponses := 0 }

/-- The machine right after reset: the values the spec gives while RESET_N is asserted and at the moment of its release,
before the first frame start (R39, R133, R161); RESET_N is still asserted (log 6). -/
def State.reset : State :=
  { pending := [], resetAsserted := true, active := .default, shadow := .default, sched := .reset,
    ports := Vector.replicate 8 .reset, links := [], atomic := none, mem := .reset, memBeat := none,
    notices := .reset, counters := .reset, frameMarks := 0, settings := .reset, mgmt := .reset, nextId := 0,
    freeCount := 0 }

/-! ### Reading and writing one part of the state -/

/-- Port p's record. -/
def State.port (s : State) (p : Port) : PortRec := s.ports.get p

/-- Port p's record replaced. -/
def State.setPort (s : State) (p : Port) (x : PortRec) : State := { s with ports := s.ports.set p.val x p.isLt }

/-- Port p's record changed by f. -/
def State.modPort (s : State) (p : Port) (f : PortRec → PortRec) : State := s.setPort p (f (s.port p))

/-- Every port's record changed by g, which is told the port. -/
def State.mapPorts (s : State) (g : Port → PortRec → PortRec) : State :=
  { s with
    ports := #v[g 0 (s.port 0), g 1 (s.port 1), g 2 (s.port 2), g 3 (s.port 3), g 4 (s.port 4), g 5 (s.port 5),
      g 6 (s.port 6), g 7 (s.port 7)] }

def State.setPending (s : State) (x : List Instr) : State := { s with pending := x }
def State.setTables (s : State) (active shadow : SlotTable) : State := { s with active := active, shadow := shadow }
def State.setSched (s : State) (x : Scheduler) : State := { s with sched := x }
def State.setLinks (s : State) (x : List Link) : State := { s with links := x }
def State.setAtomic (s : State) (x : Option AtomicRecord) : State := { s with atomic := x }
def State.setMem (s : State) (x : MemPort) : State := { s with mem := x }
def State.setMemBeat (s : State) (x : Option MemBeat) : State := { s with memBeat := x }
def State.setNotices (s : State) (x : NoticeQueue) : State := { s with notices := x }
def State.setCounters (s : State) (x : GateCounters) : State := { s with counters := x }
def State.setFrameMarks (s : State) (x : Nat) : State := { s with frameMarks := x }
def State.setSettings (s : State) (x : Settings) : State := { s with settings := x }
def State.setMgmt (s : State) (x : Mgmt) : State := { s with mgmt := x }
def State.setNextId (s : State) (x : Nat) : State := { s with nextId := x }
def State.setFreeCount (s : State) (x : Nat) : State := { s with freeCount := x }

end Sys2Proof.Machine
end

