-- ==== Sys2Proof/Machine/Operands.lean ====
section
/-! DEFINITION. Operand forms: the fields of requests and their checks (R115 to R118), granules and windows, setting
ranges (R170), and the byte layouts of responses (R117, R155, R169, R173, R174). -/

namespace Sys2Proof.Machine

/-! ### Requests -/

/-- The size in bytes a size code names; codes 4 to 7 are invalid (R117). -/
def sizeBytes (code : BitVec 3) : Nat := 2 ^ code.toNat

/-- The size code names a size (R117). -/
def sizeValid (code : BitVec 3) : Bool := code.toNat < 4

def isBurst : Kind → Bool
  | .read => true
  | .write => true
  | _ => false

def isAtomic : Kind → Bool
  | .swap => true
  | .boundedAdd => true
  | _ => false

/-- The size of a request's elements in bytes. -/
def Request.bytes (r : Request) : Nat := sizeBytes r.size

/-- The number of elements a request covers: its beats for READ and WRITE, one for every other kind (R115). -/
def Request.count (r : Request) : Nat := if isBurst r.kind then r.beats else 1

/-- The last byte a request touches, computed exactly (R118). -/
def Request.lastByte (r : Request) : Nat := r.addr.toNat + r.bytes * r.count - 1

/-- The address of the element of a beat: the request's address plus the index times the size (R29). -/
def Request.beatAddr (r : Request) (index : Nat) : Word := BitVec.ofNat 32 (r.addr.toNat + index * r.bytes)

/-- The element in the lowest bytes, the bytes above it zero (R117). -/
def maskElem (bytes : Nat) (x : Elem) : Elem := BitVec.ofNat 64 (x.toNat % 2 ^ (8 * bytes))

/-- The element a write beat of a WRITE or CONDITIONAL WRITE carries (R115); the bytes above it are ignored (R117). -/
def Request.element (r : Request) (index : Nat) : Elem := maskElem r.bytes (r.data.getD index 0)

/-- The low 4 bytes of a write-data phase: the value of a SWAP, the delta and the ceiling of a BOUNDED ADD (R117). -/
def Request.word (r : Request) (index : Nat) : Word := (r.data.getD index 0).setWidth 32

/-- The operand the atomic record takes from an entry's request (R101). -/
def Request.atomicOp (r : Request) : AtomicOp :=
  match r.kind with
  | .boundedAdd => .boundedAdd (r.word 0) (r.word 1)
  | _ => .swap (r.word 0)

/-- MEM_SIZE: 64 KiB times 2 to the power of the code (R170). -/
def memSize (code : Nat) : Nat := 65536 * 2 ^ code

/-- The refusal reason of the first check of R118 that fails; none when every check passes. `closed` says that the port
is HALTING or DISABLED. A LINK DROP is subject to check 6 alone. -/
def firstFailure (r : Request) (window : Nat) (closed : Bool) : Option RefuseReason :=
  let check6 := if closed then some RefuseReason.closed else none
  if r.kind = .linkDrop then check6
  else if !sizeValid r.size || (isAtomic r.kind && r.bytes != 4) then some .size
  else if r.addr.toNat % r.bytes ≠ 0 then some .align
  else if isBurst r.kind && (r.beats == 0 || Config.burstMax < r.beats) then some .beats
  else if window ≤ r.lastByte then some .range
  else if isBurst r.kind && r.addr.toNat / 1024 != r.lastByte / 1024 then some .boundary
  else check6

/-! ### Granules -/

/-- The granule base of an address: the address rounded down to a multiple of GRANULE (R58, R65). -/
def granuleBase (granule : Nat) (a : Word) : Word := BitVec.ofNat 32 (a.toNat / granule * granule)

/-! ### Settings -/

def SyncMode.code : SyncMode → Nat
  | .internal => 0
  | .external => 1

/-- The mode a setting value names (R170); only 0 and 1 are in range. -/
def syncModeOf (value : Nat) : SyncMode := if value = 0 then .internal else .external

/-- A row of R170: the values in its range, the stored value as the 2-byte value of R170, and the settings with that
value stored (R172). -/
structure SettingRow where
  inRange : Nat → Bool
  value : Settings → Nat
  store : Settings → Nat → Settings

/-- The table of R170; the place of a row is its setting number. -/
def settingTable : List SettingRow :=
  [⟨fun v => v ≤ 1, fun t => SyncMode.code t.syncMode, fun t v => { t with syncMode := syncModeOf v }⟩,
    ⟨fun v => 1 ≤ v, Settings.syncWait, fun t v => { t with syncWait := v }⟩,
    ⟨fun v => v == 1 || v == 2, Settings.linkLimit, fun t v => { t with linkLimit := v }⟩,
    ⟨fun v => v ≤ 255, Settings.linkAgeLimit, fun t v => { t with linkAgeLimit := v }⟩,
    ⟨fun v => [16, 32, 64].contains v, Settings.granule, fun t v => { t with granule := v }⟩,
    ⟨fun v => v ≤ 12, Settings.memSizeCode, fun t v => { t with memSizeCode := v }⟩,
    ⟨fun v => v ≤ 4095, Settings.memTimeout, fun t v => { t with memTimeout := v }⟩,
    ⟨fun v => v ≤ 255, Settings.waitLimit, fun t v => { t with waitLimit := v }⟩,
    ⟨fun v => v ≤ 255, fun t => t.splitOk.toNat, fun t v => { t with splitOk := BitVec.ofNat 8 v }⟩,
    ⟨fun v => v ≤ 255 && v % 2 == 0, fun t => t.noticeMask.toNat, fun t v => { t with noticeMask := BitVec.ofNat 8 v }⟩]

/-- The value lies in the range column of R170; a number over 9 names no setting. -/
def settingInRange (number value : Nat) : Bool := settingTable[number]?.any fun r => r.inRange value

/-- The stored value of a setting, by number, as the 2-byte value of R170. -/
def settingValue (t : Settings) (number : Nat) : Nat := (settingTable[number]?.map fun r => r.value t).getD 0

/-- The settings with one of them storing a value (R172). -/
def storeSetting (t : Settings) (number value : Nat) : Settings :=
  (settingTable[number]?.map fun r => r.store t value).getD t

/-- SPLIT_OK's flag of port p: bit p (R170). -/
def Settings.splits (t : Settings) (p : Port) : Bool := t.splitOk.getLsbD p.val

/-! ### Slot records -/

def SlotRecord.length : SlotRecord → Nat
  | .owned _ n _ => n
  | .pool n => n
  | .quiet n => n

def SlotRecord.isQuiet : SlotRecord → Bool
  | .quiet _ => true
  | _ => false

/-- The record a WRITE_SLOT's argument bytes describe, when none of them is bad (R10); the owner and donate arguments of
a POOL or QUIET record are not checked (R9). -/
def slotRecordOf (kind owner length donate : Byte) : Option SlotRecord :=
  if 1 ≤ length.toNat ∧ length.toNat ≤ 64 then
    match kind.toNat with
    | 0 =>
      if h : owner.toNat < 8 then
        if donate.toNat ≤ 1 then some (.owned ⟨owner.toNat, h⟩ length.toNat (donate.toNat == 1)) else none
      else none
    | 1 => some (.pool length.toNat)
    | 2 => some (.quiet length.toNat)
    | _ => none
  else none

/-- A record as it is returned: kind, owner, length, donate, with absent fields as zero (R2, R168, R169). -/
def SlotRecord.bytes : SlotRecord → List Byte
  | .owned o n d => [0, BitVec.ofNat 8 o.val, BitVec.ofNat 8 n, if d then 1 else 0]
  | .pool n => [1, 0, BitVec.ofNat 8 n, 0]
  | .quiet n => [2, 0, BitVec.ofNat 8 n, 0]

/-- The slot time of a table: the sum of the lengths of its in-use records (R4). -/
def SlotTable.slotTime (t : SlotTable) : Nat :=
  ((t.slots.toList.take t.frameLen).map SlotRecord.length).sum

/-! ### Arguments naming a port -/

/-- The port a port-number byte names: 0 to 7 (R125, R126, R127, R158). -/
def portArg (b : Byte) : Option Port := if h : b.toNat < 8 then some ⟨b.toNat, h⟩ else none

/-- A table index byte: 0 to 31 (R10, R14). -/
def indexArg (b : Byte) : Option (Fin 32) := if h : b.toNat < 32 then some ⟨b.toNat, h⟩ else none

/-! ### Byte layouts: most significant byte first (R155, R162) -/

def byteN (n : Nat) : Byte := BitVec.ofNat 8 n
def be16 (v : Half) : List Byte := [v.extractLsb' 8 8, v.extractLsb' 0 8]
def be32 (v : Word) : List Byte :=
  [v.extractLsb' 24 8, v.extractLsb' 16 8, v.extractLsb' 8 8, v.extractLsb' 0 8]
def be16N (n : Nat) : List Byte := be16 (BitVec.ofNat 16 n)
def flag (b : Bool) : Byte := if b then 1 else 0

def MgmtStatus.code : MgmtStatus → Byte
  | .accepted => 0
  | .pending => 1
  | .busy => 2
  | .badArgument => 3
  | .badCommand => 4
  | .badFrame => 5

/-- A management response as it is clocked out: status byte, sequence byte, data bytes (R162). -/
def MgmtResponse.bytes (r : MgmtResponse) : List Byte := MgmtStatus.code r.status :: r.sequence :: r.data

def PortState.code : PortState → Byte
  | .opened => 0
  | .halting => 1
  | .disabled => 2
  | .resetting => 3

def SchedState.code : SchedState → Byte
  | .stopped => 0
  | .running => 1
  | .draining => 2
  | .gap => 3

def MemState.code : MemState → Byte
  | .ready => 0
  | .wedged => 1

def CommitState.code : CommitState → Byte
  | .none => 0
  | .pending => 1

def kindCode : Kind → Byte
  | .read => 1
  | .write => 2
  | .linkedRead => 3
  | .conditionalWrite => 4
  | .swap => 5
  | .boundedAdd => 6
  | .linkDrop => 7

def EntryState.code : EntryState → Byte
  | .waiting => 1
  | .partly => 2
  | .issued => 3
  | .ready _ => 4
  | .refusal _ => 5

/-- The causes in the order of their codes in R173, which count from 1. -/
def lossCauses : List LossCause :=
  [.overwritten, .selfWrite, .width, .replaced, .evicted, .aged, .dropped, .faulted, .purged]

def LossCause.code (c : LossCause) : Byte := byteN (lossCauses.idxOf c + 1)

/-- LAST_LOSS as a byte: 0 is NONE (R173). -/
def lastLossByte : Option LossCause → Byte
  | none => 0
  | some c => LossCause.code c

/-- The kind codes of R155, which also number the flags of NOTICE_MASK. -/
def Notice.code : Notice → Nat
  | .starved _ => 1
  | .memFault _ _ => 2
  | .wedged _ => 3
  | .syncEarly => 4
  | .syncMissing => 5
  | .tableSwapped => 6
  | .portReady _ => 7

/-- One place of READ_PORT's queue (R173): kind, state with 128 added for the discard mark, next-beat index of a PARTIAL
burst. -/
def Entry.bytes (e : Entry) : List Byte :=
  [kindCode e.req.kind, EntryState.code e.state + (if e.marked then 128 else 0),
    if e.state = .partly ∧ isBurst e.req.kind then byteN e.nextBeat else 0]

/-- The four places, oldest first; the places after the last held entry are three zero bytes each (R173). -/
def queueBytes (q : List Entry) : List Byte :=
  ((q.take 4).map Entry.bytes).flatten ++ List.replicate (3 * (4 - (q.take 4).length)) 0

/-- The 45 data bytes of READ_PORT (R173). -/
def PortRec.bytes (x : PortRec) : List Byte :=
  [PortState.code x.state, flag x.enabled, flag x.prst, byteN x.queue.length] ++ queueBytes x.queue ++
    [byteN x.waitCounter, flag x.starved] ++ be32 x.granted ++ be32 x.slack ++ be32 x.condOk ++ be32 x.condFail ++
    be32 x.refused ++ be16 x.clampCount ++ be32 x.lossCount ++ [lastLossByte x.lastLoss]

/-- The sync wait timer as READ_GATE reports it: 0 when idle (R159). -/
def timerValue : Option Nat → Nat
  | none => 0
  | some n => n

/-- The 39 data bytes of READ_GATE (R174). -/
def gateBytes (s : State) : List Byte :=
  [SchedState.code s.sched.state, byteN s.sched.slot.val, byteN s.sched.budget] ++ be16N (timerValue s.sched.timer) ++
    [byteN (SyncMode.code s.sched.syncInForce), CommitState.code s.sched.commit, byteN s.sched.poolNext.val,
      MemState.code s.mem.state, byteN s.mem.owed, byteN s.mem.outstanding.length, byteN s.notices.records.length] ++
    be16 s.sched.frameNumber ++ be32 s.counters.poolSlack ++ be32 s.counters.earlySync ++
    be32 s.counters.missingSync ++ be32 s.counters.overhangCount ++ be32 s.counters.maintWindows ++
    be32 s.counters.strayResponses ++ [s.notices.lost]

/-- The fields of a notice that bytes 2, 6 to 9 and 10 of R155 show; 0 where absent. -/
def Notice.port : Notice → Byte
  | .starved p => byteN p.val
  | .memFault p _ => byteN p.val
  | .portReady p => byteN p.val
  | _ => 0

def Notice.addr : Notice → Word
  | .memFault _ a => a
  | _ => 0

def Notice.count : Notice → Byte
  | .wedged n => byteN n
  | _ => 0

/-- The 13 data bytes of PEEK_NOTICE and TAKE_NOTICE (R155): the record if there is one, the records held after the
command, and NOTICE_LOST. -/
def noticeBytes (r : Option NoticeRecord) (held : Nat) (lost : Byte) : List Byte :=
  (match r with
    | none => List.replicate 11 0
    | some r =>
      [1, byteN (Notice.code r.notice), Notice.port r.notice, byteN r.repeats] ++ be16 r.frame ++
        be32 (Notice.addr r.notice) ++ [Notice.count r.notice]) ++
    [byteN held, lost]

/-- The 10 data bytes of READ_LINK (R169). -/
def linkBytes (l : Option Link) (valid granule : Nat) : List Byte :=
  (match l with
    | none => List.replicate 8 0
    | some l => [1, byteN l.holder.val] ++ be32 l.base ++ [byteN l.width, byteN l.age]) ++
    [byteN valid, byteN granule]

/-! ### The status phase of a response (R117) -/

/-- The status phase: status, reason, first bad beat, clamped. -/
structure StatusPhase where
  status : BitVec 2
  reason : BitVec 3
  firstBad : BitVec 4
  clamped : BitVec 1
  deriving DecidableEq, Repr

/-- The status and reason codes of R117. -/
def statusCode : Status → BitVec 2 × BitVec 3
  | .outcome .done => (0, 0)
  | .outcome .noLink => (1, 1)
  | .outcome .width => (1, 2)
  | .refused .size => (2, 1)
  | .refused .align => (2, 2)
  | .refused .beats => (2, 3)
  | .refused .range => (2, 4)
  | .refused .boundary => (2, 5)
  | .refused .closed => (2, 6)
  | .outcome .memerr => (3, 1)
  | .outcome .timeout => (3, 2)

/-- The read-data phases and the status phase that carry a response (R117): the old value of an atomic update is one
phase. -/
def Response.phases (r : Response) : List Elem × StatusPhase :=
  (r.data ++ (match r.oldValue with | some v => [v.setWidth 64] | none => []),
    { status := (statusCode r.status).1, reason := (statusCode r.status).2,
      firstBad := BitVec.ofNat 4 (r.firstBad.getD 0),
      clamped := if r.clamped = some true then 1 else 0 })

end Sys2Proof.Machine
end

