-- ==== Sys2Proof/Machine/Flags.lean ====
section
/-! DEFINITION. What counts and what signals: saturating counters, the loss record (R74), and the notice queue with its
NOTICE line (R148 to R151). -/

namespace Sys2Proof.Machine

/-- One more, staying at the largest value (spec/00, Conventions, Counters): CLAMP_COUNT, NOTICE_LOST. -/
def satInc {w : Nat} (x : BitVec w) : BitVec w := if x = BitVec.allOnes w then x else x + 1

/-! ### The loss record -/

/-- The record of a port n of whose links one happening closed with a cause other than CONSUMED (R74). -/
def recordLoss (cause : LossCause) (n : Nat) (x : PortRec) : PortRec :=
  if n = 0 then x else { x with lastLoss := some cause, lossCount := x.lossCount + BitVec.ofNat 32 n }

/-! ### The notice queue -/

/-- The coalescing kinds (R147). -/
def Notice.coalesces : Notice → Bool
  | .starved _ => true
  | .syncEarly => true
  | .syncMissing => true
  | _ => false

/-- The record's kind is not masked: the flag of its code is clear in NOTICE_MASK (R151). -/
def unmasked (mask : Byte) (r : NoticeRecord) : Bool := !mask.getLsbD r.notice.code

/-- The NOTICE output: asserted while a record of a kind that is not masked is in the queue (R151). -/
def noticeLine (mask : Byte) (records : List NoticeRecord) : Bool := records.any (unmasked mask)

/-- A record identical to the raise is in the queue: same coalescing kind and, for STARVED, the same port (R149). -/
def mergeable (q : NoticeQueue) (n : Notice) : Bool := n.coalesces && q.records.any (fun r => r.notice = n)

/-- The record with one more raise merged into it, saturating at 255 (R148). -/
def bumpRepeat (n : Notice) (r : NoticeRecord) : NoticeRecord :=
  if r.notice = n then { r with repeats := min 255 (r.repeats + 1) } else r

/-- A raise reaches the queue: merge, append or drop, in this order (R148). -/
def NoticeQueue.raise (q : NoticeQueue) (mask : Byte) (n : Notice) (frame : Half) : NoticeQueue :=
  if mergeable q n then { q with records := q.records.map (bumpRepeat n) }
  else if q.records.length < Config.noticeDepth then
    let records := q.records ++ [{ notice := n, frame := frame, repeats := 1 }]
    { q with records := records, line := noticeLine mask records }
  else { q with lost := satInc q.lost }

/-- The queue without its oldest record, the NOTICE line recomputed (R154). -/
def NoticeQueue.take (q : NoticeQueue) (mask : Byte) : NoticeQueue :=
  { q with records := q.records.tail, line := noticeLine mask q.records.tail }

/-- A notice is raised with FRAME_NUMBER as it stands (R43, R147). -/
def raise (n : Notice) (s : State) : State :=
  s.setNotices (s.notices.raise s.settings.noticeMask n s.sched.frameNumber)

/-- Several raises, in the order of the list. -/
def raiseAll : List Notice → State → State
  | [], s => s
  | n :: rest, s => raiseAll rest (raise n s)

/-! ### A free order -/

/-- A permutation of a list named by a number: k chooses the first element, and what is left of k chooses the rest.
`fuel` bounds the recursion; the list's length is enough. Every permutation is named by some k. -/
def permuteBy {α : Type} : Nat → Nat → List α → List α
  | 0, _, l => l
  | fuel + 1, k, l =>
    match l[k % l.length]? with
    | none => l
    | some x => x :: permuteBy fuel (k / l.length) (l.eraseIdx (k % l.length))

end Sys2Proof.Machine
end

