-- ==== Sys2Proof/Machine/Ops.lean ====
section
/-! DEFINITION. The shared operations: the link table, the request queues, the scheduler, the memory port and the framing
of management commands. Every meaning is written over these. -/

namespace Sys2Proof.Machine

/-! ### The link table (spec/04) -/

/-- The links that f selects close with one cause, in one happening, each recorded in its holder's loss record (R74). -/
def closeWhere (f : Link → Bool) (cause : LossCause) (s : State) : State :=
  (s.mapPorts fun p x => recordLoss cause (s.links.countP fun l => f l && l.holder == p) x).setLinks
    (s.links.filter fun l => !f l)

/-- The port's link on a granule base, if it holds one (R85). -/
def linkOn (s : State) (p : Port) (base : Word) : Option Link :=
  s.links.find? fun l => l.holder == p && l.base == base

/-- A purge of every link held by one port (R73). -/
def purgePort (p : Port) (s : State) : State := closeWhere (fun l => l.holder == p) .purged s

/-- A purge of every valid link (R73). -/
def purgeAll (s : State) : State := closeWhere (fun _ => true) .purged s

/-- The replacement step of an opening: a port that holds LINK_LIMIT links gives up its oldest (R66). -/
def replaceStep (p : Port) (s : State) : State :=
  if s.settings.linkLimit ≤ s.links.countP (fun l => l.holder == p) then
    match s.links.find? (fun l => l.holder == p) with
    | some oldest => closeWhere (fun l => l == oldest) .replaced s
    | none => s
  else s

/-- The eviction step of an opening: a full table gives up the link at rank 1 (R67). -/
def evictStep (s : State) : State :=
  if Config.linkEntries ≤ s.links.length then
    match s.links.head? with
    | some oldest => closeWhere (fun l => l == oldest) .evicted s
    | none => s
  else s

/-- The issue of a LINKED READ beat at the link table: refresh, or replace, evict and open (R65). `serial` is the beat's
number. -/
def openLink (p : Port) (a : Word) (bytes serial : Nat) (s : State) : State :=
  let base := granuleBase s.settings.granule a
  let link : Link := { holder := p, base := base, width := bytes, age := 0, openedBy := serial }
  match linkOn s p base with
  | some _ => s.setLinks ((s.links.filter fun l => !(l.holder == p && l.base == base)) ++ [link])
  | none =>
    let s1 := evictStep (replaceStep p s)
    s1.setLinks (s1.links ++ [link])

/-- A write beat of port q closes every other holder's link on its granule (R69). -/
def closeOthers (q : Port) (a : Word) (s : State) : State :=
  closeWhere (fun l => l.base == granuleBase s.settings.granule a && l.holder != q) .overwritten s

/-- A WRITE beat or an atomic write beat of port q closes q's own link on its granule (R69). -/
def closeOwn (q : Port) (a : Word) (s : State) : State :=
  closeWhere (fun l => l.base == granuleBase s.settings.granule a && l.holder == q) .selfWrite s

/-- A beat is presented to the link monitor at its issue, and acts by its class (R64). The own link of a successful
CONDITIONAL WRITE was closed CONSUMED at the judgement (R86). -/
def presentBeat (p : Port) (kind : BeatKind) (a : Word) (bytes serial : Nat) (s : State) : State :=
  match kind with
  | .read => s
  | .atomicRead => s
  | .linkedRead => openLink p a bytes serial s
  | .conditionalWrite => closeOthers p a s
  | .write => closeOwn p a (closeOthers p a s)
  | .atomicWrite => closeOwn p a (closeOthers p a s)

/-- Ageing at a frame mark: every age rises by one, saturating at 255; then, under a limit other than 0, the links whose
age exceeds it close AGED (R71). -/
def ageLinks (s : State) : State :=
  let s1 := s.setLinks (s.links.map fun l => { l with age := min 255 (l.age + 1) })
  if s.settings.linkAgeLimit = 0 then s1 else closeWhere (fun l => s.settings.linkAgeLimit < l.age) .aged s1

/-- Port p's link is the younger of the links its holder has, or the only one (R62). -/
def isYoungestOfHolder (links : List Link) (l : Link) : Bool :=
  (links.filter fun x => x.holder == l.holder).getLast? == some l

/-- The closings of a LINK_LIMIT lowered to 1: the older of each port's two links (R62). -/
def closeOlder (s : State) : State := closeWhere (fun l => !isYoungestOfHolder s.links l) .replaced s

/-! ### The request queue (spec/07, spec/02) -/

/-- Fully issued entries are those in state ISSUED, READY_TO_ANSWER or REFUSAL; a LINK DROP that has taken effect is
READY_TO_ANSWER (R93). -/
def Entry.fullyIssued (e : Entry) : Bool :=
  match e.state with
  | .issued => true
  | .ready _ => true
  | .refusal _ => true
  | .waiting => false
  | .partly => false

/-- The issue head (R17): the oldest entry that is not fully issued, unless it is a LINK DROP that has not taken effect.
A RESETTING port has none (R124). -/
def issueHead (x : PortRec) : Option Entry :=
  if x.state = .resetting then none
  else
    match x.queue.find? (fun e => !e.fullyIssued) with
    | some e => if e.req.kind = .linkDrop then none else some e
    | none => none

/-- The beats of an entry from its next-beat index to its last (R19). -/
def Entry.remaining (e : Entry) : Nat := e.req.count - e.nextBeat

/-- The fit test of an issue head against a slot's full length (R19). -/
def fits (split : Bool) (length : Nat) (e : Entry) : Bool :=
  match e.req.kind with
  | .read => if split then 1 ≤ length else e.remaining ≤ length
  | .write => if split then 1 ≤ length else e.remaining ≤ length
  | .linkedRead => 1 ≤ length
  | .conditionalWrite => 1 ≤ length
  | .swap => 2 ≤ length
  | .boundedAdd => 2 ≤ length
  | .linkDrop => false

/-- The ready test of a port at a slot's start (R18): a HALTING port is ready when its head fits. What R10 says of a HALTING
owner's own slot is in `readyFor`. -/
def portReady (s : State) (length : Nat) (p : Port) : Bool :=
  match (s.port p).state with
  | .disabled => false
  | .resetting => false
  | _ =>
    match issueHead (s.port p) with
    | some e => fits (s.settings.splits p) length e
    | none => false

/-- The entry with this identity changed by f. -/
def modEntry (id : Nat) (f : Entry → Entry) (x : PortRec) : PortRec :=
  { x with queue := x.queue.map fun e => if e.id = id then f e else e }

/-- A port without an issue head clears its frame watch (R130). -/
def clearIdleWatch (x : PortRec) : PortRec := if issueHead x = none then { x with watching := false } else x

/-- A beat of the port issues, or its CONDITIONAL WRITE is judged: the frame watch is cleared and the STARVED episode
closes (R130, R131). -/
def noteService (x : PortRec) : PortRec := { x with watching := false, starved := false }

/-- A LINK DROP whose every older entry is fully issued has not taken effect yet (R93). -/
def dropDue : List Entry → Bool
  | [] => false
  | e :: rest =>
    if e.fullyIssued then dropDue rest else e.req.kind = .linkDrop && e.state = .waiting

/-- The LINK DROP entries that are due, READY_TO_ANSWER with DONE (R93). -/
def settleDrops : List Entry → List Entry
  | [] => []
  | e :: rest =>
    if e.fullyIssued then e :: settleDrops rest
    else if e.req.kind = .linkDrop ∧ e.state = .waiting then { e with state := .ready .done } :: settleDrops rest
    else e :: rest

/-- The LINK DROPs of port p that are due take effect: the port's links close DROPPED and the entries become
READY_TO_ANSWER (R72, R93). Every happening that completes an older entry's issue ends with this (log 4). -/
def takeDrops (p : Port) (s : State) : State :=
  if dropDue (s.port p).queue then
    (closeWhere (fun l => l.holder == p) .dropped s).modPort p fun x => { x with queue := settleDrops x.queue }
  else s

/-- `takeDrops` of several ports. -/
def takeDropsOf : List Port → State → State
  | [], s => s
  | p :: rest, s => takeDropsOf rest (takeDrops p s)

/-! ### Acceptance (R118 to R121) -/

/-- The port takes an arriving or withheld request now (R120); nothing is taken while RESET_N is asserted (R124). -/
def canTake (s : State) (p : Port) : Bool :=
  !s.resetAsserted &&
    match (s.port p).state with
    | .resetting => false
    | .disabled => true
    | _ => (s.port p).queue.length < Config.queueDepth

/-- A REFUSED response (R116). -/
def refusedResponse (r : RefuseReason) : Response :=
  { status := .refused r, data := [], firstBad := none, oldValue := none, clamped := none }

/-- A new entry in a given state. -/
def newEntry (id : Nat) (r : Request) (st : EntryState) : Entry :=
  { id := id, req := r, state := st, nextBeat := 0, data := [], firstBad := none, oldValue := none, clamped := none,
    marked := false }

/-- A port that can take a request checks it and appends it as WAITING, appends it as a REFUSAL entry, or answers it at
once (R118, R120, R121). The write data of a refused request is discarded (R115). A LINK DROP accepted with every older
entry fully issued takes effect here (R93). -/
def takeRequest (p : Port) (r : Request) (s : State) : State :=
  let x := s.port p
  let closed := x.state = .halting || x.state = .disabled
  match firstFailure r (memSize s.settings.memSizeCode) closed with
  | none =>
    takeDrops p
      ((s.setPort p { x with queue := x.queue ++ [newEntry s.nextId r .waiting] }).setNextId (s.nextId + 1))
  | some why =>
    if x.state = .disabled then
      s.setPort p { x with refused := x.refused + 1, lastResponse := some (refusedResponse why) }
    else
      (s.setPort p
          { x with
            refused := x.refused + 1
            queue := x.queue ++ [newEntry s.nextId { r with data := [] } (.refusal why)] }).setNextId
        (s.nextId + 1)

/-- A request is presented at a port: taken, or withheld and kept presented (R120). One request is presented at a time,
so a second presentation while one is withheld does not occur and changes nothing (log 14). -/
def presentRequest (p : Port) (r : Request) (s : State) : State :=
  if (s.port p).presented.isSome then s
  else if canTake s p then takeRequest p r s
  else s.modPort p fun x => { x with presented := some r }

/-- The withheld request of a port is taken when the reason for withholding has ended (R120). -/
def takeWithheld (p : Port) (s : State) : State :=
  match (s.port p).presented with
  | none => s
  | some r => if canTake s p then takeRequest p r (s.modPort p fun x => { x with presented := none }) else s

/-! ### Delivery (R116, R122, R123) -/

/-- The response record of an entry whose outcome is known (R116); none while it is not. -/
def Entry.response (e : Entry) : Option Response :=
  match e.state with
  | .ready v =>
    some
      { status := .outcome v
        data := if e.req.kind = .read ∨ e.req.kind = .linkedRead then e.data else []
        firstBad := if isBurst e.req.kind ∧ v = .memerr then e.firstBad else none
        oldValue := if isAtomic e.req.kind ∧ v = .done then e.oldValue else none
        clamped := if e.req.kind = .boundedAdd ∧ v = .done then e.clamped else none }
  | .refusal r => some (refusedResponse r)
  | _ => none

/-- The read-data phases a port has sent of the response in progress: the elements of its oldest entry matched so far,
each sent as soon as it can be (R123). They are a view of the queue, not state of their own (log 13). -/
def streamed (x : PortRec) : List Elem :=
  match x.queue with
  | [] => []
  | e :: _ =>
    if e.marked then []
    else if e.req.kind = .read ∨ e.req.kind = .linkedRead then e.data
    else []

/-- The port's oldest response, when it can be delivered (R122). -/
def deliverable (s : State) (p : Port) : Option Response :=
  if s.resetAsserted ∨ (s.port p).state = .resetting then none
  else
    match (s.port p).queue with
    | [] => none
    | e :: _ => e.response

/-- A port with no entry left: its STARVED episode closes (R131), and a HALTING port becomes DISABLED (R125). -/
def whenEmptied (x : PortRec) : PortRec :=
  if x.queue = [] then
    { x with starved := false, state := if x.state = .halting then .disabled else x.state }
  else x

/-- The delivery of the oldest entry's response, whole: the entry is freed; a HALTING port whose last entry this was
becomes DISABLED and its links close PURGED (R122, R125). -/
def deliver (p : Port) (s : State) : State :=
  match deliverable s p with
  | none => s
  | some r =>
    let s1 := s.modPort p fun x => whenEmptied { x with queue := x.queue.tail, lastResponse := some r }
    if (s1.port p).state = .disabled ∧ (s.port p).state ≠ .disabled then purgePort p s1 else s1

/-! ### Port reset (R127, R128) -/

/-- A beat of this entry is outstanding. -/
def beatOutstanding (s : State) (id : Nat) : Bool := s.mem.outstanding.any fun b => b.entry == id

/-- The atomic record holds the update of this entry. -/
def inAtomicRecord (s : State) (id : Nat) : Bool :=
  match s.atomic with
  | some a => a.entry == id
  | none => false

/-- What the start of a port reset leaves of an entry (R127, steps 3 and 4): none for an entry discarded or freed. -/
def resetEntry (s : State) (e : Entry) : Option Entry :=
  match e.state with
  | .issued => if beatOutstanding s e.id || inAtomicRecord s e.id then some { e with marked := true } else none
  | .partly => if beatOutstanding s e.id || inAtomicRecord s e.id then some { e with marked := true } else none
  | _ => none

/-- The start of a port reset (R127). Taken while the port is RESETTING it changes nothing. -/
def startReset (p : Port) (s : State) : State :=
  if (s.port p).state = .resetting then s
  else
    (purgePort p s).modPort p fun x =>
      { x with
        state := .resetting, queue := x.queue.filterMap (resetEntry s), waitCounter := 0, watching := false,
        starved := false }

/-- The start of a port reset of every port whose PRST_n line is asserted (R124). -/
def startResets : List Port → State → State
  | [], s => s
  | p :: rest, s => startResets rest (if (s.port p).prst then startReset p s else s)

/-- A RESETTING port meets the three conditions of R128. -/
def resetDrained (s : State) (p : Port) : Bool :=
  (s.port p).state = .resetting && !(s.port p).prst && !s.mem.outstanding.any (fun b => b.port == p) &&
    (match s.atomic with
      | some a => a.port != p
      | none => true)

/-- The end of a port reset (R128): its queue is then empty; it becomes OPEN or DISABLED by the enable setting, and
raises PORT_READY. -/
def endReset (p : Port) (s : State) : State :=
  if !s.resetAsserted && resetDrained s p then
    raise (.portReady p) (s.modPort p fun x =>
      { x with state := if x.enabled then .opened else .disabled, queue := [] })
  else s

/-! ### Maintenance windows (R145) -/

/-- The conditions of R145 for asserting MAINT_GRANT hold. -/
def maintDue (s : State) : Bool :=
  s.mem.quietOpen && !s.mem.maintGrant && s.mem.maintReq && s.mem.outstanding.isEmpty && s.atomic.isNone &&
    !s.mem.windowGiven

/-- MAINT_GRANT is asserted as soon as its conditions hold (R145). Every happening that can make them hold ends with
this (log 4). -/
def grantMaint (s : State) : State :=
  if maintDue s then
    (s.setMem { s.mem with maintGrant := true, windowGiven := true }).setCounters
      { s.counters with maintWindows := s.counters.maintWindows + 1 }
  else s

/-! ### Slots and frames (spec/02, spec/03) -/

/-- The order in which a pick examines the ports: POOL_NEXT first (R23). -/
def pickOrder (next : Port) : List Port := Port.all.map fun k => next + k

/-- Port p is the HALTING owner of an OWNED record (R10). -/
def haltingOwner (s : State) (r : SlotRecord) (p : Port) : Bool :=
  match r with
  | .owned o _ _ => o == p && (s.port p).state == .halting
  | .pool _ => false
  | .quiet _ => false

/-- Port p is ready for the starting slot of a record: it meets the ready test of R18. Of a HALTING owner in its own slot
R10 says that it is not ready, and R18, R21, R124 and R125 that it is when its head fits; no ruling sets one of them aside,
so which holds is a free value (DESIGN CHOICE, log 22). -/
def readyFor (s : State) (r : SlotRecord) (p : Port) : Bool :=
  portReady s r.length p && (!haltingOwner s r p || Config.haltingOwnerReady)

/-- The pool pick for the starting slot of a record: the first ready port, and POOL_NEXT after it (R23). -/
def poolPick (s : State) (r : SlotRecord) : Option Port × Port :=
  match (pickOrder s.sched.poolNext).find? (readyFor s r) with
  | some p => (some p, p + 1)
  | none => (none, s.sched.poolNext)

/-- The grantee of a starting slot, and POOL_NEXT after the choice (R21, R22, R24, R25). Of an OWNED slot whose owner is
HALTING see `readyFor` (log 22). -/
def chooseGrantee (s : State) (r : SlotRecord) : Option Port × Port :=
  if s.mem.state = .wedged then (none, s.sched.poolNext)
  else
    match r with
    | .owned o _ d =>
      if readyFor s r o then (some o, s.sched.poolNext)
      else if d then poolPick s r
      else (none, s.sched.poolNext)
    | .pool _ => poolPick s r
    | .quiet _ => (none, s.sched.poolNext)

/-- A slot start: the active record is read and kept, the grantee chosen, the budget set to the record's length (R5, R20,
R26); a QUIET slot opens the quiet window (R24, R145). -/
def startSlot (i : Fin 32) (s : State) : State :=
  let r := s.active.slots.get i
  let g := chooseGrantee s r
  grantMaint
    ((s.setSched
        { s.sched with slot := i, budget := r.length, record := some r, grantee := g.1, poolNext := g.2 }).setMem
      { s.mem with quietOpen := r.isQuiet, windowGiven := if r.isQuiet then false else s.mem.windowGiven })

/-- The swap: the shadow, all 32 records and its FRAME_LEN, is copied into the active table, and the commit state becomes
NONE (R53). TABLE_SWAPPED is raised by the caller, with the frame number R53 gives. -/
def swapTables (s : State) : State :=
  (s.setTables s.shadow s.shadow).setSched { s.sched with commit := .none }

/-- The wait counter after a frame mark (R130, step 1). `hold`: the memory port is, or has been since the previous mark,
WEDGED. -/
def markCounter (hold : Bool) (x : PortRec) : Nat :=
  if hold then x.waitCounter else if x.watching then min 255 (x.waitCounter + 1) else 0

/-- The port raises STARVED at a frame mark (R131). -/
def raisesStarved (hold : Bool) (limit : Nat) (x : PortRec) : Bool :=
  limit != 0 && limit ≤ markCounter hold x && !x.starved

/-- A port at a frame mark: counter, starvation, frame watch (R130, R131). -/
def markPort (hold ready : Bool) (limit : Nat) (x : PortRec) : PortRec :=
  { x with
    waitCounter := markCounter hold x
    starved := x.starved || raisesStarved hold limit x
    watching := ready && (issueHead x).isSome }

/-- The STARVED notices of one frame mark in the order in which they are taken. R152 leaves the order of raises that
fall together open: of several ports it is a free value (log 8). -/
def raiseStarved (ports : List Port) (s : State) : State :=
  if ports.length ≤ 1 then raiseAll (ports.map Notice.starved) s
  else
    raiseAll ((permuteBy ports.length (Config.freeOrder s.freeCount) ports).map Notice.starved)
      (s.setFreeCount (s.freeCount + 1))

/-- The ports' part of a frame mark (R130, R131). -/
def markPorts (s : State) : State :=
  let hold := s.mem.state = .wedged || s.mem.wedgedSinceMark
  let limit := s.settings.waitLimit
  let ports := Port.all.filter fun p => raisesStarved hold limit (s.port p)
  raiseStarved ports
    ((s.mapPorts fun _ x => markPort hold (s.mem.state = .ready) limit x).setMem
      { s.mem with wedgedSinceMark := s.mem.state = .wedged })

/-- The frame mark as the other blocks see it: links age, ports update their wait counters (R43). -/
def frameMark (s : State) : State := markPorts (ageLinks s)

/-- The steps of R42 up to the pulse of FRAME_MARK: swap if a commit is pending, count the frame, raise TABLE_SWAPPED
with the new number, pulse. -/
def countFrame (s : State) : State :=
  let swapped := s.sched.commit = .pending
  let s1 := if swapped then swapTables s else s
  let s2 := s1.setSched { s1.sched with frameNumber := s1.sched.frameNumber + 1 }
  let s3 := if swapped then raise .tableSwapped s2 else s2
  s3.setFrameMarks (s3.frameMarks + 1)

/-- A frame start (R42): count and swap, RUNNING with the timer stopped, slot 0 of the active table starts, and the other
blocks take the frame mark (R43). -/
def frameStart (s : State) : State :=
  let s1 := countFrame s
  frameMark (startSlot 0 (s1.setSched { s1.sched with state := .running, timer := none }))

/-- The scheduler enters GAP: no slot, and the sync wait timer starts with SYNC_WAIT (R45, R50). -/
def enterGap (s : State) : State :=
  s.setSched
    { s.sched with
      state := .gap, slot := 0, budget := 0, record := none, grantee := none, timer := some s.settings.syncWait }

/-- The scheduler enters STOPPED: no slot, the mode in force takes the written one, and a pending commit is swapped in
with TABLE_SWAPPED carrying FRAME_NUMBER as it stands (R51). -/
def enterStopped (s : State) : State :=
  let s1 :=
    s.setSched
      { s.sched with
        state := .stopped, slot := 0, budget := 0, record := none, grantee := none, timer := none,
        syncInForce := s.settings.syncMode }
  if s.sched.commit = .pending then raise .tableSwapped (swapTables s1) else s1

/-- A frame end: the mode in force takes the written one, and then a frame starts or GAP is entered (R45). -/
def frameEnd (s : State) : State :=
  let s1 := s.setSched { s.sched with syncInForce := s.settings.syncMode }
  match s.settings.syncMode with
  | .internal => frameStart s1
  | .external => enterGap s1

/-- What every slot end does first: an atomic update in progress is marked overhanging (R108), and the quiet window
closes with MAINT_GRANT withdrawn (R145). -/
def closeSlot (s : State) : State :=
  (s.setAtomic (s.atomic.map fun a => { a with overhanging := true })).setMem
    { s.mem with quietOpen := false, maintGrant := false }

/-- The slot end's happening is due: a slot is in progress and its budget is zero (R44). -/
def slotEndDue (s : State) : Bool := !s.resetAsserted && s.sched.record.isSome && s.sched.budget == 0

/-- A slot end, with the start of what follows it, as one happening (R44). -/
def endSlot (s : State) : State :=
  let s1 := closeSlot s
  match s.sched.state with
  | .draining => enterStopped s1
  | _ => if s.sched.slot.val + 1 < s.active.frameLen then startSlot (s.sched.slot + 1) s1 else frameEnd s1

/-! ### Issue (R27, R29, R134, R135) -/

/-- The deadline a beat takes at its issue (R135). -/
def newDeadline (timeout : Nat) : Option Nat := if timeout = 0 then none else some timeout

/-- The issue of a beat (R134): the outstanding list grows by its record, the beat is driven to the memory controller,
the port's GRANTED rises (R27), and the beat is presented to the link monitor (R64). `value` is the element of a write
beat. -/
def issueBeat (p : Port) (entry index : Nat) (kind : BeatKind) (a : Word) (bytes : Nat) (value : Option Elem)
    (s : State) : State :=
  let beat : BeatRecord :=
    { port := p, entry := entry, index := index, kind := kind, addr := a,
      deadline := newDeadline s.settings.memTimeout, serial := s.nextId }
  let s1 :=
    (((s.setMem { s.mem with outstanding := s.mem.outstanding ++ [beat] }).setNextId (s.nextId + 1)).setMemBeat
      (some { write := value.isSome, addr := a, bytes := bytes, element := value })).modPort p
      fun x => noteService { x with granted := x.granted + 1 }
  presentBeat p kind a bytes s.nextId s1

/-- Conditions 1 to 3 of R27: the memory port is READY, fewer than 16 beats are outstanding, no atomic update is in its
hold. -/
def pathFree (s : State) : Bool :=
  s.mem.state = .ready && s.mem.outstanding.length < Config.outstandingMax && s.atomic.isNone

/-- A READ or WRITE head places its next beat (R29): PARTIAL after its first beat, ISSUED when its last has issued. -/
def placeBurst (p : Port) (e : Entry) (s : State) : State :=
  let value := if e.req.kind = .write then some (e.req.element e.nextBeat) else none
  let kind := if e.req.kind = .write then BeatKind.write else BeatKind.read
  let s1 := issueBeat p e.id e.nextBeat kind (e.req.beatAddr e.nextBeat) e.req.bytes value s
  takeDrops p
    (s1.modPort p
      (modEntry e.id fun e =>
        { e with
          nextBeat := e.nextBeat + 1
          state := if e.nextBeat + 1 < e.req.count then .partly else .issued }))

/-- A LINKED READ head places its one beat and becomes ISSUED (R29, R79). -/
def placeLinkedRead (p : Port) (e : Entry) (s : State) : State :=
  let s1 := issueBeat p e.id 0 .linkedRead e.req.addr e.req.bytes none s
  takeDrops p (s1.modPort p (modEntry e.id fun e => { e with nextBeat := 1, state := .issued }))

/-- An atomic head's read beat (R105): the record is filled with phase READING, and the entry becomes PARTIAL. -/
def placeAtomicRead (p : Port) (e : Entry) (s : State) : State :=
  let s1 := issueBeat p e.id 0 .atomicRead e.req.addr 4 none s
  (s1.modPort p (modEntry e.id fun e => { e with state := .partly })).setAtomic
    (some
      { port := p, entry := e.id, addr := e.req.addr, op := e.req.atomicOp, phase := .reading, overhanging := false })

/-- A judgement that succeeds (R86): the link closes CONSUMED, which no loss record counts, COND_OK rises, and the write
beat issues in the same happening. -/
def judgeSuccess (p : Port) (e : Entry) (s : State) : State :=
  let base := granuleBase s.settings.granule e.req.addr
  let s1 :=
    (s.setLinks (s.links.filter fun l => !(l.holder == p && l.base == base))).modPort p
      fun x => { x with condOk := x.condOk + 1 }
  let s2 := issueBeat p e.id 0 .conditionalWrite e.req.addr e.req.bytes (some (e.req.element 0)) s1
  takeDrops p (s2.modPort p (modEntry e.id fun e => { e with nextBeat := 1, state := .issued }))

/-- The part of a failed judgement that both reasons share (R87, R88): no beat, COND_FAIL rises, and the entry is
READY_TO_ANSWER with FAILED. -/
def judgeFailure (p : Port) (e : Entry) (v : Verdict) (s : State) : State :=
  takeDrops p
    (s.modPort p fun x =>
      modEntry e.id (fun e => { e with state := .ready v }) (noteService { x with condFail := x.condFail + 1 }))

/-- The judgement of a CONDITIONAL WRITE head (R85), and whether its write beat issued. -/
def judge (p : Port) (e : Entry) (s : State) : State × Bool :=
  let base := granuleBase s.settings.granule e.req.addr
  match linkOn s p base with
  | some l =>
    if l.width = e.req.bytes then (judgeSuccess p e s, true)
    else
      (judgeFailure p e .width (closeWhere (fun x => x.holder == p && x.base == base) .width s), false)
  | none => (judgeFailure p e .noLink s, false)

/-- The issue decision of the grantee p (R27, R29, R30), and the port whose beat issued. A head that finishes without a
beat, as a failed CONDITIONAL WRITE does, lets the next eligible entry be considered in the same beat time; `fuel`
bounds the entries considered. -/
def tryIssue : Nat → Port → State → State × Option Port
  | 0, _, s => (s, none)
  | fuel + 1, p, s =>
    match issueHead (s.port p) with
    | none => (s, none)
    | some e =>
      if !pathFree s then (s, none)
      else
        match e.req.kind with
        | .read =>
          if s.settings.splits p || e.remaining ≤ s.sched.budget then (placeBurst p e s, some p) else (s, none)
        | .write =>
          if s.settings.splits p || e.remaining ≤ s.sched.budget then (placeBurst p e s, some p) else (s, none)
        | .linkedRead => (placeLinkedRead p e s, some p)
        | .conditionalWrite =>
          match judge p e s with
          | (s1, true) => (s1, some p)
          | (s1, false) => tryIssue fuel p s1
        | .swap => if 2 ≤ s.sched.budget then (placeAtomicRead p e s, some p) else (s, none)
        | .boundedAdd => if 2 ≤ s.sched.budget then (placeAtomicRead p e s, some p) else (s, none)
        | .linkDrop => (s, none)

/-! ### The update engine (spec/06) -/

/-- The new value of a SWAP or BOUNDED ADD and its clamped flag, absent for a SWAP (R102, R103). The sum is exact. -/
def atomicResult (op : AtomicOp) (old : Word) : Word × Option Bool :=
  match op with
  | .swap v => (v, none)
  | .boundedAdd delta ceiling =>
    let sum : Int := (old.toNat : Int) + delta.toInt
    if sum < 0 then (0, some true)
    else if (ceiling.toNat : Int) < sum then (ceiling, some true)
    else (BitVec.ofInt 32 sum, some false)

/-- The write beat of the atomic record is owed, and the memory port can take it (R107, R134). -/
def atomicWriteDue (s : State) : Bool :=
  (match s.atomic with
    | some a =>
      match a.phase with
      | .writeOwed _ _ _ => true
      | .reading => false
    | none => false) &&
    s.mem.state = .ready && s.mem.outstanding.length < Config.outstandingMax

/-- The update engine issues the write beat it owes (R107): the record becomes empty, the old value and the clamped flag
pass to the entry, which becomes ISSUED, and an overhang is counted (R108). Answers the port whose beat issued. -/
def issueAtomicWrite (s : State) : State × Option Port :=
  match s.atomic with
  | none => (s, none)
  | some a =>
    match a.phase with
    | .reading => (s, none)
    | .writeOwed old new clamped =>
      let s1 :=
        (s.setAtomic none).setCounters
          { s.counters with overhangCount := s.counters.overhangCount + (if a.overhanging then 1 else 0) }
      let s2 := issueBeat a.port a.entry 0 .atomicWrite a.addr 4 (some (new.setWidth 64)) s1
      (takeDrops a.port
          (s2.modPort a.port
            (modEntry a.entry fun e => { e with state := .issued, oldValue := some old, clamped := clamped })),
        some a.port)

/-! ### A beat time (R26, R37, R135) -/

/-- The deadline of an outstanding beat has passed: it reached 0 with the beat outstanding (R135, R140). -/
def wedgeDue (s : State) : Bool :=
  !s.resetAsserted && s.mem.state = .ready && s.mem.outstanding.any fun b => b.deadline == some 0

/-- The sync wait timer has run out in GAP (R48). -/
def timerDue (s : State) : Bool := !s.resetAsserted && s.sched.state = .gap && s.sched.timer == some 0

/-- A beat time can pass: RESET_N is not asserted, and no wedge, slot end or running out of the sync wait timer is due,
which come before the next beat time (R44, R48, R140; log 3). -/
def beatCanPass (s : State) : Bool :=
  !s.resetAsserted && !wedgeDue s && !slotEndDue s && !timerDue s

/-- The deadline of an outstanding beat passes in the beat time at hand: the memory port may wedge ahead of that beat
time's issue decision, which then issues nothing (R142; log 24). -/
def wedgeAhead (s : State) : Bool :=
  beatCanPass s && s.mem.state = .ready && s.mem.outstanding.any fun b => b.deadline == some 1

/-- The deadlines fall by one, of the beats issued in earlier beat times (R135). -/
def ageDeadlines (s : State) : State :=
  s.setMem
    { s.mem with outstanding := s.mem.outstanding.map fun b => { b with deadline := b.deadline.map (· - 1) } }

/-- The issue decision of a beat time, and the port whose beat issued in it: an owed atomic write (R107), or the
grantee's issue head (R27). -/
def decideIssue (s : State) : State × Option Port :=
  if atomicWriteDue s then issueAtomicWrite s
  else
    match s.sched.record, s.sched.grantee with
    | some _, some p => tryIssue (s.port p).queue.length p s
    | _, _ => (s, none)

/-- The slack of a beat time of a slot, when no beat of the slot's grantee issued in it, by the slot's record (R37). -/
def chargeSlack (r : SlotRecord) (s : State) : State :=
  match r with
  | .owned o _ _ => s.modPort o fun x => { x with slack := x.slack + 1 }
  | .pool _ => s.setCounters { s.counters with poolSlack := s.counters.poolSlack + 1 }
  | .quiet _ => s

/-- A beat of the grantee issued. -/
def granteeIssued (s : State) (issued : Option Port) : Bool := issued.isSome && issued == s.sched.grantee

/-- The end of a beat time: in a slot the budget falls by one and slack is charged (R26, R37); in GAP the sync wait timer
counts down (R48). -/
def endBeat (issued : Option Port) (s : State) : State :=
  match s.sched.record with
  | some r =>
    let s1 := if granteeIssued s issued then s else chargeSlack r s
    s1.setSched { s1.sched with budget := s1.sched.budget - 1 }
  | none =>
    if s.sched.state = .gap then s.setSched { s.sched with timer := s.sched.timer.map (· - 1) } else s

/-- One whole beat time: its issue decision, and what counts at its end (log 2). -/
def beatTime (s : State) : State :=
  let r := decideIssue (ageDeadlines (s.setMemBeat none))
  endBeat r.2 r.1

/-! ### The last beat time of a frame behind the frame mark (R71, R78, R96, R132) -/

/-- The last beat time of a frame is at hand and the frame mark follows it at once: the scheduler is RUNNING in the
frame's last slot, whose budget counts this beat time alone, and the frame end comes under INTERNAL (R45). -/
def markFirstDue (s : State) : Bool :=
  beatCanPass s && s.sched.record.isSome && s.sched.budget == 1 && s.sched.state = .running &&
    s.active.frameLen ≤ s.sched.slot.val + 1 && s.settings.syncMode = .internal

/-- The frame mark ahead of a beat time of the ending frame (log 23): the frame is counted, links and ports take the mark,
and then the beat time passes as the ending frame's (R42, R43). -/
def beatBehindMark (s : State) : State := beatTime (frameMark (countFrame s))

/-- The frame mark that follows the last beat time of a frame is taken first (log 23): that beat time passes behind the mark
under the ending frame's last slot, which ends; slot 0 starts, as at every frame start (R42, R45). -/
def markFirst (s : State) : State :=
  let s1 := closeSlot (beatBehindMark s)
  startSlot 0 (s1.setSched { s1.sched with state := .running, timer := none, syncInForce := .internal })

/-- The last beat time of a GAP is at hand: the sync wait timer counts it alone, and the frame mark of its running out
follows at once (R48, R132). -/
def gapMarkFirstDue (s : State) : Bool := beatCanPass s && s.sched.state = .gap && s.sched.timer == some 1

/-- The frame mark that follows the last beat time of a GAP is taken first (log 23): that beat time passes behind the mark,
in GAP; slot 0 starts, as at every frame start (R42, R132). -/
def gapMarkFirst (s : State) : State :=
  let s1 := beatBehindMark s
  startSlot 0 (s1.setSched { s1.sched with state := .running, timer := none })

/-! ### Responses and the wedge (spec/08) -/

/-- The outcome of an entry whose every beat has been answered (R136): FAULT with MEMERR if one was. -/
def outcomeOf (e : Entry) : Verdict := if e.firstBad.isSome then .memerr else .done

/-- The last outstanding response of an entry has been matched: an entry marked for discard is freed, unless the atomic
record still holds its update; an ISSUED entry becomes READY_TO_ANSWER (R136, R128). -/
def completeEntry (p : Port) (id : Nat) (s : State) : State :=
  if beatOutstanding s id || inAtomicRecord s id then s
  else
    s.modPort p fun x =>
      { x with
        queue := x.queue.filterMap fun e =>
          if e.id ≠ id then some e
          else if e.marked then none
          else if e.state = .issued then some { e with state := .ready (outcomeOf e) }
          else some e }

/-- The entry's MEMERR is its first (R137). -/
def firstMemerr (s : State) (b : BeatRecord) : Bool :=
  match (s.port b.port).queue.find? (fun e => e.id == b.entry) with
  | some e => e.firstBad.isNone
  | none => false

/-- A MEMERR of a request: its first raises MEM_FAULT with the failing beat's address, and is kept as the entry's first
bad beat (R136, R137). Kept for an entry marked for discard too, so that MEM_FAULT is raised once (log 16). -/
def noteMemerr (b : BeatRecord) (s : State) : State :=
  if firstMemerr s b then
    raise (.memFault b.port b.addr)
      (s.modPort b.port (modEntry b.entry fun e => { e with firstBad := some b.index }))
  else s

/-- A MEMERR on a LINKED READ beat closes FAULTED the link that this beat opened or last refreshed, if it is still valid
(R68). -/
def faultedClose (b : BeatRecord) (s : State) : State :=
  closeWhere (fun l => l.holder == b.port && l.openedBy == b.serial) .faulted s

/-- The element of a read beat is stored in the entry, unless the entry is marked for discard (R136). -/
def storeElement (b : BeatRecord) (element : Elem) (s : State) : State :=
  s.modPort b.port
    (modEntry b.entry fun e =>
      if e.marked then e else { e with data := e.data ++ [maskElem e.req.bytes element] })

/-- The read data of an atomic update is matched OK (R107): old value, new value and clamped flag are set, the record
enters WRITE_OWED, and a clamp is counted (R104). -/
def atomicReadMatched (element : Elem) (s : State) : State :=
  match s.atomic with
  | none => s
  | some a =>
    let old := element.setWidth 32
    let r := atomicResult a.op old
    (s.setAtomic (some { a with phase := .writeOwed old r.1 r.2 })).modPort a.port fun x =>
      { x with clampCount := if r.2 = some true then satInc x.clampCount else x.clampCount }

/-- The read beat of an atomic update is answered MEMERR (R111): the record becomes empty, MEM_FAULT is raised, and the
entry is READY_TO_ANSWER with FAULT, or freed if it is marked for discard. -/
def atomicReadFailed (b : BeatRecord) (s : State) : State :=
  let s1 := (noteMemerr b s).setAtomic none
  let s2 :=
    s1.modPort b.port fun x =>
      { x with
        queue := x.queue.filterMap fun e =>
          if e.id ≠ b.entry then some e
          else if e.marked then none
          else some { e with state := .ready .memerr } }
  (takeDrops b.port s2).modPort b.port clearIdleWatch

/-- A response matched to a beat is handed to the block that owns the beat (R136). The list no longer holds the beat. -/
def handResponse (b : BeatRecord) (status : MemStatus) (element : Elem) (s : State) : State :=
  match b.kind, status with
  | .atomicRead, .ok => atomicReadMatched element s
  | .atomicRead, .memerr => atomicReadFailed b s
  | .read, .ok => completeEntry b.port b.entry (storeElement b element s)
  | .read, .memerr => completeEntry b.port b.entry (storeElement b element (noteMemerr b s))
  | .linkedRead, .ok => completeEntry b.port b.entry (storeElement b element s)
  | .linkedRead, .memerr => completeEntry b.port b.entry (storeElement b element (faultedClose b (noteMemerr b s)))
  | _, .ok => completeEntry b.port b.entry s
  | _, .memerr => completeEntry b.port b.entry (noteMemerr b s)

/-- A response of the memory controller (R136, R138): matched to the oldest outstanding beat; with the list empty it is
one of the responses owed, or a stray. While RESET_N is asserted it is discarded and not counted (R133). -/
def takeResponse (status : MemStatus) (element : Elem) (s : State) : State :=
  if s.resetAsserted then s
  else
    match s.mem.outstanding with
    | b :: rest => grantMaint (handResponse b status element (s.setMem { s.mem with outstanding := rest }))
    | [] =>
      if 0 < s.mem.owed then s.setMem { s.mem with owed := s.mem.owed - 1 }
      else s.setCounters { s.counters with strayResponses := s.counters.strayResponses + 1 }

/-- The elements a READ or LINKED READ answers at a wedge: those not matched are zero (R123). -/
def zeroFilled (e : Entry) : List Elem :=
  if e.req.kind = .read ∨ e.req.kind = .linkedRead then
    e.data ++ List.replicate (e.req.count - e.data.length) 0
  else e.data

/-- What a wedge makes of an entry (R141): none for an entry marked for discard, which is freed. -/
def wedgeEntry (e : Entry) : Option Entry :=
  match e.state with
  | .issued =>
    if e.marked then none
    else some { e with state := .ready (if e.firstBad.isSome then .memerr else .timeout), data := zeroFilled e }
  | .partly =>
    if e.marked then none
    else some { e with state := .ready (if e.firstBad.isSome then .memerr else .timeout), data := zeroFilled e }
  | _ => some e

/-- The wedge (R140, R141): every outstanding beat fails, the atomic record empties, owed is set, the memory port is
WEDGED, every link is purged, WEDGED is raised, every frame watch is cleared; then the LINK DROPs behind the entries it
completed take effect (R141), and a maintenance window may be granted (R146). -/
def takeWedge (s : State) : State :=
  let failed := s.mem.outstanding.length
  let s1 :=
    ((s.mapPorts fun _ x => { x with queue := x.queue.filterMap wedgeEntry, watching := false }).setAtomic none).setMem
      { s.mem with state := .wedged, outstanding := [], owed := failed, wedgedSinceMark := true }
  grantMaint (takeDropsOf Port.all (raise (.wedged failed) (purgeAll s1)))

/-! ### Frames of the management port (spec/10) -/

/-- What a command answers: the state it leaves, its status and its data bytes (R164). -/
structure MgmtReply where
  state : State
  status : MgmtStatus
  data : List Byte

/-- A command carried out. -/
def accept (s : State) (data : List Byte) : MgmtReply := ⟨s, .accepted, data⟩

/-- A command that changes nothing and answers with a status alone (R169). -/
def refuse (s : State) (status : MgmtStatus) : MgmtReply := ⟨s, status, []⟩

/-- The bits of the response buffer that a frame of n bits clocks out on MDO: low beyond its end (R162). -/
def clockedOut (r : MgmtResponse) (n : Nat) : List Bool :=
  (bitsOfBytes r.bytes).take n ++ List.replicate (n - (bitsOfBytes r.bytes).length) false

/-- The bits of a frame are shifted in while MSEL_n is low: they stand as the frame in progress, and as many bits of the
buffer have been clocked out from its first bit on (R161, R162, R165). -/
def shiftIn (bits : List Bool) (s : State) : State :=
  s.setMgmt
    { s.mgmt with
      frame := .shifting bits, mdo := clockedOut s.mgmt.response bits.length, readout := bits.length }

/-- MSEL_n rises: no frame is in progress (R161). -/
def riseOfMsel (s : State) : State := s.setMgmt { s.mgmt with frame := .none }

/-- A management frame ends (log 9): its bits, all those since MSEL_n fell, have been shifted in, MSEL_n rises, and f is
what the frame makes of the gate. While RESET_N is asserted no frame is taken, and at the rise that ends a frame in
progress at its release nothing is done (R167). -/
def endFrame (bits : List Bool) (f : State → State) (s : State) : State :=
  if s.resetAsserted then s
  else if s.mgmt.frame = .discarding then riseOfMsel s
  else f (riseOfMsel (shiftIn bits s))

/-- The sequence byte: the count in its upper four bits, the low four bits of the code in its lower four (R166). -/
def sequenceByte (count : BitVec 4) (code : Byte) : Byte := count ++ code.extractLsb' 0 4

/-- The response buffer is replaced, and the sequence count incremented (R164). -/
def respond (code : Byte) (r : MgmtReply) : State :=
  let count := r.state.mgmt.seqCount + 1
  r.state.setMgmt
    { r.state.mgmt with response := ⟨r.status, sequenceByte count code, r.data⟩, seqCount := count }

/-- A frame that executes a command: `args` are its argument bytes (R168), `fill` the number of fill bytes after them
(R163), `body` the command (R164). -/
def command (code : Byte) (args : List Byte) (fill : Nat) (body : State → MgmtReply) (s : State) : State :=
  endFrame (bitsOfBytes (code :: args ++ List.replicate fill 0)) (fun s1 => respond code (body s1)) s

end Sys2Proof.Machine
end

