-- ==== Sys2Proof/Machine/Frames.lean ====
section
/-! DEFINITION. Management frames that execute no command (R163): EMPTY_FRAME, FILL_FRAME, BAD_FRAME, BAD_COMMAND. -/

namespace Sys2Proof.Machine

/-- EMPTY_FRAME (R163, case 1): nothing executes; the buffer and the sequence count are kept. -/
def execEmptyFrame (s : State) : Host.Outcome State Fault Refusal := .next (endFrame [] id s)

/-- FILL_FRAME (R163, case 3): that many 0x00 bytes clock out the buffer; nothing executes, and the buffer and the
sequence count are kept. -/
def execFillFrame (bytes : Nat) (s : State) : Host.Outcome State Fault Refusal := .next (endFrame (bitsOfBytes (List.replicate bytes 0)) id s)

/-- BAD_FRAME (R163): no state of the gate changes; the response BAD_FRAME without data replaces the buffer, and the
frame is counted. -/
def execBadFrame (bits : List Bool) (s : State) : Host.Outcome State Fault Refusal :=
  match classifyFrame bits with
  | .badFrame code => .next (endFrame bits (fun s1 => respond code (refuse s1 .badFrame)) s)
  | _ => .refused .notThisFrame

/-- BAD_COMMAND (R163): no state of the gate changes; the response BAD_COMMAND without data replaces the buffer, and the
frame is counted. -/
def execBadCommand (bits : List Bool) (s : State) : Host.Outcome State Fault Refusal :=
  match classifyFrame bits with
  | .badCommand code => .next (endFrame bits (fun s1 => respond code (refuse s1 .badCommand)) s)
  | _ => .refused .notThisFrame

end Sys2Proof.Machine
end

