-- ==== Sys2Proof/Machine/GateCommands.lean ====
section
/-! DEFINITION. The management commands on links, notices, recovery, clearing, and READ_GATE. -/

namespace Sys2Proof.Machine

/-- READ_LINK (R77): position k names the link at rank k + 1. -/
def execReadLink (position : Byte) (fill : Nat) (s : State) : Host.Outcome State Fault Refusal :=
  .next (command 0x40 [position] fill
    (fun s1 =>
      if position.toNat ≤ 11 then
        accept s1 (linkBytes s1.links[position.toNat]? s1.links.length s1.settings.granule)
      else refuse s1 .badArgument) s)

/-- PURGE_LINKS' effect (R76): the links of one port, or of all for 0xFF, and the number closed. -/
def purgeBody (b : Byte) (s : State) : MgmtReply :=
  if b = 0xFF then accept (purgeAll s) [byteN s.links.length]
  else
    match portArg b with
    | some p => accept (purgePort p s) [byteN (s.links.countP fun l => l.holder == p)]
    | none => refuse s .badArgument

/-- PURGE_LINKS (R76). -/
def execPurgeLinks (port : Byte) (fill : Nat) (s : State) : Host.Outcome State Fault Refusal :=
  .next (command 0x41 [port] fill (purgeBody port) s)

/-- PEEK_NOTICE (R153). -/
def execPeekNotice (fill : Nat) (s : State) : Host.Outcome State Fault Refusal :=
  .next (command 0x50 [] fill
    (fun s1 => accept s1 (noticeBytes s1.notices.records.head? s1.notices.records.length s1.notices.lost)) s)

/-- TAKE_NOTICE's effect (R154): the oldest record is removed and returned; on an empty queue nothing changes. -/
def takeNoticeBody (s : State) : MgmtReply :=
  match s.notices.records with
  | [] => accept s (noticeBytes none 0 s.notices.lost)
  | r :: rest =>
    accept (s.setNotices (s.notices.take s.settings.noticeMask)) (noticeBytes (some r) rest.length s.notices.lost)

/-- TAKE_NOTICE (R154). -/
def execTakeNotice (fill : Nat) (s : State) : Host.Outcome State Fault Refusal :=
  .next (command 0x51 [] fill takeNoticeBody s)

/-- The memory port state and owed as they stand after a recovery (R143, R144). -/
def recoverBytes (s : State) : List Byte := [s.mem.state.code, byteN s.mem.owed]

/-- RECOVER's effect (R143). -/
def recoverBody (s : State) : MgmtReply :=
  match s.mem.state with
  | .ready => accept s (recoverBytes s)
  | .wedged =>
    if s.mem.owed = 0 then
      let s1 := s.setMem { s.mem with state := .ready }
      accept s1 (recoverBytes s1)
    else ⟨s, .busy, recoverBytes s⟩

/-- RECOVER (R143). -/
def execRecover (fill : Nat) (s : State) : Host.Outcome State Fault Refusal :=
  .next (command 0x60 [] fill recoverBody s)

/-- RECOVER_FORCE's effect (R144). -/
def recoverForceBody (s : State) : MgmtReply :=
  match s.mem.state with
  | .ready => accept s (recoverBytes s)
  | .wedged =>
    let s1 := s.setMem { s.mem with state := .ready, owed := 0 }
    accept s1 (recoverBytes s1)

/-- RECOVER_FORCE (R144). -/
def execRecoverForce (fill : Nat) (s : State) : Host.Outcome State Fault Refusal :=
  .next (command 0x61 [] fill recoverForceBody s)

/-- A port's counters and loss record cleared (R156, R160). -/
def clearPort (x : PortRec) : PortRec :=
  { x with
    granted := 0, slack := 0, condOk := 0, condFail := 0, refused := 0, clampCount := 0, lastLoss := none,
    lossCount := 0 }

/-- CLEAR_STATE's effect (R160): every counter but FRAME_NUMBER, every LAST_LOSS, the notice queue, NOTICE_LOST and the
NOTICE line. -/
def clearAll (s : State) : State :=
  ((s.mapPorts fun _ x => clearPort x).setCounters .reset).setNotices .reset

/-- CLEAR_STATE (R160). -/
def execClearState (fill : Nat) (s : State) : Host.Outcome State Fault Refusal :=
  .next (command 0x70 [] fill (fun s1 => accept (clearAll s1) []) s)

/-- READ_GATE (R159, R174). -/
def execReadGate (fill : Nat) (s : State) : Host.Outcome State Fault Refusal :=
  .next (command 0x71 [] fill (fun s1 => accept s1 (gateBytes s1)) s)

end Sys2Proof.Machine
end

