-- ==== Sys2Proof/Machine/MemoryPath.lean ====
section
/-! DEFINITION. The memory path: SLOT_END, ISSUE_DECISION, ATOMIC_WRITE_BEAT, MEMORY_RESPONSE, WEDGE. -/

namespace Sys2Proof.Machine

/-- SLOT_END (R44): the slot whose budget is zero ends, and the next slot starts, the frame ends (R45), or a draining
scheduler becomes STOPPED (R51). Commanded ahead of the last beat time of a frame, it is the other order of R71: the frame
mark is taken before that beat time's issue decision (log 23). Without such a slot it does not happen (log 3). -/
def execSlotEnd (s : State) : Host.Outcome State Fault Refusal :=
  .next (if slotEndDue s then endSlot s else if markFirstDue s then markFirst s else s)

/-- ISSUE_DECISION (R27): one beat time, with its issue decision. It cannot pass while RESET_N is asserted or while a
timed happening is due (log 3). -/
def execIssueDecision (s : State) : Host.Outcome State Fault Refusal :=
  .next (if beatCanPass s then beatTime s else s)

/-- ATOMIC_WRITE_BEAT (R107): the beat time in which the write beat that the update engine owes issues. With no write
owed it does not happen (log 3). -/
def execAtomicWriteBeat (s : State) : Host.Outcome State Fault Refusal :=
  .next (if beatCanPass s && atomicWriteDue s then beatTime s else s)

/-- MEMORY_RESPONSE (R136, R138). -/
def execMemoryResponse (status : MemStatus) (element : Elem) (s : State) : Host.Outcome State Fault Refusal :=
  .next (takeResponse status element s)

/-- WEDGE (R140): it happens when the deadline of an outstanding beat has passed (log 3). Commanded ahead of the issue
decision of the beat time in which a deadline passes, it is the other order of R142: that beat time then issues nothing
(log 24). -/
def execWedge (s : State) : Host.Outcome State Fault Refusal :=
  .next (if wedgeDue s || wedgeAhead s then takeWedge s else s)

end Sys2Proof.Machine
end

