-- ==== Sys2Proof/Machine/Pins.lean ====
section
/-! DEFINITION. The pins and the timing source: RESET_N, PRST_n, SYNC_IN, the sync wait timer, MAINT_REQ and
MAINT_GRANT. -/

namespace Sys2Proof.Machine

/-- A port's record at the assertion of RESET_N (R124): the reset values, with the PRST_n line and the request presented
at it, which lie outside the part, as they stand (log 7). -/
def resetPort (x : PortRec) : PortRec := { PortRec.reset with prst := x.prst, presented := x.presented }

/-- The whole part at the assertion of RESET_N: the values of `State.reset`, with the input pins as they stand and the
queue of commands kept (R41, R60, R101, R124, R133, R148, R161, R170). -/
def pinReset (s : State) : State :=
  { State.reset with
    pending := s.pending
    ports :=
      #v[resetPort (s.port 0), resetPort (s.port 1), resetPort (s.port 2), resetPort (s.port 3),
        resetPort (s.port 4), resetPort (s.port 5), resetPort (s.port 6), resetPort (s.port 7)]
    mem := { MemPort.reset with maintReq := s.mem.maintReq }
    freeCount := s.freeCount }

/-- RESET_N_ASSERTED (R41). It raises no notice and pulses no line. -/
def execResetNAsserted (s : State) : Host.Outcome State Fault Refusal := .next (pinReset s)

/-- RESET_N_RELEASED (R41, R124, R167): the first frame start is taken, and a port reset starts at each port whose
PRST_n line is asserted. With MSEL_n low at the release, the bits clocked until it rises are discarded. With RESET_N not
asserted there is nothing to release (log 3). -/
def execResetNReleased (mselLow : Bool) (s : State) : Host.Outcome State Fault Refusal :=
  if s.resetAsserted then
    let s1 : State := { s with resetAsserted := false }
    let s2 := s1.setMgmt { s1.mgmt with frame := if mselLow then .discarding else .none }
    .next (startResets Port.all (frameStart s2))
  else .next s

/-- PRST_N_ASSERTED (R127): a port reset starts, unless the port is RESETTING already. While RESET_N is asserted the port
ignores its line (R124), whose level is kept. -/
def execPrstNAsserted (p : Port) (s : State) : Host.Outcome State Fault Refusal :=
  let s1 := s.modPort p fun x => { x with prst := true }
  .next (if s.resetAsserted then s1 else startReset p s1)

/-- PRST_N_RELEASED (R128): the line no longer holds the port in RESETTING. The end of the reset is a happening of its
own, PORT_RESET_END (log 5). -/
def execPrstNReleased (p : Port) (s : State) : Host.Outcome State Fault Refusal :=
  .next (s.modPort p fun x => { x with prst := false })

/-- A pulse counted as early (R49). -/
def earlyPulse (s : State) : State :=
  raise .syncEarly (s.setCounters { s.counters with earlySync := s.counters.earlySync + 1 })

/-- SYNC_IN_PULSE (R47, R49): in GAP a frame start; in RUNNING or DRAINING counted as early; in STOPPED, or while RESET_N
is asserted (R41), ignored. -/
def execSyncInPulse (s : State) : Host.Outcome State Fault Refusal :=
  if s.resetAsserted then .next s
  else
    match s.sched.state with
    | .gap => .next (frameStart s)
    | .running => .next (earlyPulse s)
    | .draining => .next (earlyPulse s)
    | .stopped => .next s

/-- A frame start that SYNC_IN has missed (R48, steps 1 and 2). -/
def missedPulse (s : State) : State :=
  raise .syncMissing (s.setCounters { s.counters with missingSync := s.counters.missingSync + 1 })

/-- SYNC_WAIT_TIMER_EXPIRY (R48): SYNC_MISSING with the number of the frame just ended, MISSING_SYNC, and a frame start.
It happens when the timer has run out in GAP (log 3). Commanded ahead of the last beat time of the GAP, it is the other order
of R132: the frame mark is taken before that beat time's atomic write beat (log 23). -/
def execSyncWaitTimerExpiry (s : State) : Host.Outcome State Fault Refusal :=
  .next
    (if timerDue s then frameStart (missedPulse s)
    else if gapMarkFirstDue s then gapMarkFirst (missedPulse s)
    else s)

/-- MAINT_REQ_ASSERTED (R145, R146): the grant follows at once when its other conditions hold. -/
def execMaintReqAsserted (s : State) : Host.Outcome State Fault Refusal :=
  .next (grantMaint (s.setMem { s.mem with maintReq := true }))

/-- MAINT_REQ_WITHDRAWN (R146): a grant already asserted stays asserted to the slot's end. -/
def execMaintReqWithdrawn (s : State) : Host.Outcome State Fault Refusal :=
  .next (s.setMem { s.mem with maintReq := false })

/-- MAINT_GRANT (R145): asserted when its conditions hold. -/
def execMaintGrant (s : State) : Host.Outcome State Fault Refusal := .next (grantMaint s)

end Sys2Proof.Machine
end

