-- ==== Sys2Proof/Machine/PortCommands.lean ====
section
/-! DEFINITION. The management commands that name a port (R125 to R127, R158). -/

namespace Sys2Proof.Machine

/-- Port, port state after the command, enable setting (R169). -/
def portReply (p : Port) (s : State) : MgmtReply :=
  accept s [byteN p.val, (s.port p).state.code, flag (s.port p).enabled]

/-- A command with a port argument: any value over 7 is refused with BAD_ARGUMENT (R125, R126, R127, R158). -/
def onPort (b : Byte) (act : Port → State → MgmtReply) (s : State) : MgmtReply :=
  match portArg b with
  | some p => act p s
  | none => refuse s .badArgument

/-- PORT_ENABLE's effect (R126). -/
def enablePort (x : PortRec) : PortRec :=
  match x.state with
  | .disabled => { x with enabled := true, state := .opened }
  | .halting => { x with enabled := true, state := .opened }
  | _ => { x with enabled := true }

/-- PORT_ENABLE (R126). -/
def execPortEnable (port : Byte) (fill : Nat) (s : State) : Host.Outcome State Fault Refusal :=
  .next (command 0x30 [port] fill (onPort port fun p s1 => portReply p (s1.modPort p enablePort)) s)

/-- PORT_DISABLE's effect (R125): an OPEN port becomes HALTING, or DISABLED with its links purged when its queue is
empty. -/
def disablePort (p : Port) (s : State) : State :=
  match (s.port p).state with
  | .opened =>
    if (s.port p).queue = [] then
      purgePort p (s.modPort p fun x => { x with enabled := false, state := .disabled })
    else s.modPort p fun x => { x with enabled := false, state := .halting }
  | _ => s.modPort p fun x => { x with enabled := false }

/-- PORT_DISABLE (R125). -/
def execPortDisable (port : Byte) (fill : Nat) (s : State) : Host.Outcome State Fault Refusal :=
  .next (command 0x31 [port] fill (onPort port fun p s1 => portReply p (disablePort p s1)) s)

/-- PORT_RESET (R127). -/
def execPortReset (port : Byte) (fill : Nat) (s : State) : Host.Outcome State Fault Refusal :=
  .next (command 0x32 [port] fill (onPort port fun p s1 => portReply p (startReset p s1)) s)

/-- READ_PORT (R158, R173). -/
def execReadPort (port : Byte) (fill : Nat) (s : State) : Host.Outcome State Fault Refusal :=
  .next (command 0x33 [port] fill (onPort port fun p s1 => accept s1 (s1.port p).bytes) s)

end Sys2Proof.Machine
end

