-- ==== Sys2Proof/Machine/PortEvents.lean ====
section
/-! DEFINITION. What a port does of itself: RESPONSE_DELIVERY, LINK_DROP_TAKES_EFFECT, PORT_RESET_END,
WITHHELD_REQUEST_TAKEN. -/

namespace Sys2Proof.Machine

/-- RESPONSE_DELIVERY (R122): the oldest entry's response is delivered whole, once its outcome is known. -/
def execResponseDelivery (p : Port) (s : State) : Host.Outcome State Fault Refusal := .next (deliver p s)

/-- LINK_DROP_TAKES_EFFECT (R93): a LINK DROP whose every older entry is fully issued. -/
def execLinkDropTakesEffect (p : Port) (s : State) : Host.Outcome State Fault Refusal :=
  .next (if s.resetAsserted then s else takeDrops p s)

/-- PORT_RESET_END (R128). -/
def execPortResetEnd (p : Port) (s : State) : Host.Outcome State Fault Refusal := .next (endReset p s)

/-- WITHHELD_REQUEST_TAKEN (R120). -/
def execWithheldRequestTaken (p : Port) (s : State) : Host.Outcome State Fault Refusal := .next (takeWithheld p s)

end Sys2Proof.Machine
end

