-- ==== Sys2Proof/Machine/Requests.lean ====
section
/-! DEFINITION. The seven kinds of request an initiator presents (R115): each is checked and accepted, made a refusal
entry, answered at once, or withheld (R118, R120). Fields that do not belong to the kind are not kept (R115). -/

namespace Sys2Proof.Machine

/-- READ (R118). -/
def execRead (p : Port) (size : BitVec 3) (beats : BitVec 5) (addr : Word) (s : State) :
    Host.Outcome State Fault Refusal :=
  .next (presentRequest p { kind := .read, addr := addr, size := size, beats := beats.toNat, data := [] } s)

/-- WRITE (R118): its beat count is the number of data phases it brings (R115). -/
def execWrite (p : Port) (size : BitVec 3) (addr : Word) (data : List Elem) (s : State) :
    Host.Outcome State Fault Refusal :=
  .next (presentRequest p { kind := .write, addr := addr, size := size, beats := data.length, data := data } s)

/-- LINKED READ (R79). -/
def execLinkedRead (p : Port) (size : BitVec 3) (addr : Word) (s : State) : Host.Outcome State Fault Refusal :=
  .next (presentRequest p { kind := .linkedRead, addr := addr, size := size, beats := 1, data := [] } s)

/-- CONDITIONAL WRITE (R83). -/
def execConditionalWrite (p : Port) (size : BitVec 3) (addr : Word) (data : Elem) (s : State) :
    Host.Outcome State Fault Refusal :=
  .next (presentRequest p { kind := .conditionalWrite, addr := addr, size := size, beats := 1, data := [data] } s)

/-- SWAP (R102). -/
def execSwap (p : Port) (size : BitVec 3) (addr : Word) (value : Elem) (s : State) :
    Host.Outcome State Fault Refusal :=
  .next (presentRequest p { kind := .swap, addr := addr, size := size, beats := 1, data := [value] } s)

/-- BOUNDED ADD (R103): the delta in the first phase and the ceiling in the second (R117). -/
def execBoundedAdd (p : Port) (size : BitVec 3) (addr : Word) (delta ceiling : Elem) (s : State) :
    Host.Outcome State Fault Refusal :=
  .next (presentRequest p { kind := .boundedAdd, addr := addr, size := size, beats := 1, data := [delta, ceiling] } s)

/-- LINK DROP (R92). -/
def execLinkDrop (p : Port) (s : State) : Host.Outcome State Fault Refusal :=
  .next (presentRequest p { kind := .linkDrop, addr := 0, size := 0, beats := 1, data := [] } s)

end Sys2Proof.Machine
end

