-- ==== Sys2Proof/Machine/SettingCommands.lean ====
section
/-! DEFINITION. READ_SETTING and WRITE_SETTING (R170 to R172), one row for each setting written. -/

namespace Sys2Proof.Machine

/-- The data bytes of READ_SETTING and WRITE_SETTING: number and stored value (R169). -/
def settingReply (s : State) (number : Nat) : MgmtReply :=
  accept s (byteN number :: be16N (settingValue s.settings number))

/-- A WRITE_SETTING of a setting 0 to 9 (R172): out of range it is refused and stores nothing; in range it is stored, and
`effect`, told the settings before the write, is the side effect its own rule gives. -/
def writeSettingBody (number : Nat) (value : Half) (effect : Settings → State → State) (s : State) : MgmtReply :=
  if settingInRange number value.toNat then
    settingReply (effect s.settings (s.setSettings (storeSetting s.settings number value.toNat))) number
  else refuse s .badArgument

/-- No side effect at the write (R172). -/
def noEffect (_old : Settings) (s : State) : State := s

/-- SYNC_MODE (R46): in GAP a write of INTERNAL takes force and starts a frame; in STOPPED the mode in force takes the
value at once; in RUNNING and DRAINING it waits for the frame end or for STOPPED. -/
def syncModeEffect (_old : Settings) (s : State) : State :=
  match s.sched.state, s.settings.syncMode with
  | .gap, .internal => frameStart (s.setSched { s.sched with syncInForce := .internal })
  | .stopped, m => s.setSched { s.sched with syncInForce := m }
  | _, _ => s

/-- LINK_LIMIT (R62): lowered from 2 to 1, each port holding two links loses its older with REPLACED. -/
def linkLimitEffect (old : Settings) (s : State) : State :=
  if s.settings.linkLimit < old.linkLimit then closeOlder s else s

/-- GRANULE (R61): a change closes every valid link with PURGED. -/
def granuleEffect (old : Settings) (s : State) : State :=
  if s.settings.granule = old.granule then s else purgeAll s

/-- NOTICE_MASK (R151): the NOTICE line is recomputed under the new mask. -/
def noticeMaskEffect (_old : Settings) (s : State) : State :=
  s.setNotices { s.notices with line := noticeLine s.settings.noticeMask s.notices.records }

/-- The side effect of each setting, by number (R172). -/
def settingEffect (number : Nat) : Settings → State → State :=
  match number with
  | 0 => syncModeEffect
  | 2 => linkLimitEffect
  | 4 => granuleEffect
  | 9 => noticeMaskEffect
  | _ => noEffect

/-- READ_SETTING (R171). -/
def execReadSetting (number : Byte) (fill : Nat) (s : State) : Host.Outcome State Fault Refusal :=
  .next (command 0x01 [number] fill
    (fun s1 => if number.toNat ≤ 9 then settingReply s1 number.toNat else refuse s1 .badArgument) s)

/-- WRITE_SETTING of SYNC_MODE (R46). -/
def execWriteSyncMode (value : Half) (fill : Nat) (s : State) : Host.Outcome State Fault Refusal :=
  .next (command 0x02 (0 :: halfBytes value) fill (writeSettingBody 0 value syncModeEffect) s)

/-- WRITE_SETTING of SYNC_WAIT (R48). -/
def execWriteSyncWait (value : Half) (fill : Nat) (s : State) : Host.Outcome State Fault Refusal :=
  .next (command 0x02 (1 :: halfBytes value) fill (writeSettingBody 1 value noEffect) s)

/-- WRITE_SETTING of LINK_LIMIT (R62). -/
def execWriteLinkLimit (value : Half) (fill : Nat) (s : State) : Host.Outcome State Fault Refusal :=
  .next (command 0x02 (2 :: halfBytes value) fill (writeSettingBody 2 value linkLimitEffect) s)

/-- WRITE_SETTING of LINK_AGE_LIMIT (R63). -/
def execWriteLinkAgeLimit (value : Half) (fill : Nat) (s : State) : Host.Outcome State Fault Refusal :=
  .next (command 0x02 (3 :: halfBytes value) fill (writeSettingBody 3 value noEffect) s)

/-- WRITE_SETTING of GRANULE (R61). -/
def execWriteGranule (value : Half) (fill : Nat) (s : State) : Host.Outcome State Fault Refusal :=
  .next (command 0x02 (4 :: halfBytes value) fill (writeSettingBody 4 value granuleEffect) s)

/-- WRITE_SETTING of the MEM_SIZE code (R118). -/
def execWriteMemSize (value : Half) (fill : Nat) (s : State) : Host.Outcome State Fault Refusal :=
  .next (command 0x02 (5 :: halfBytes value) fill (writeSettingBody 5 value noEffect) s)

/-- WRITE_SETTING of MEM_TIMEOUT (R135). -/
def execWriteMemTimeout (value : Half) (fill : Nat) (s : State) : Host.Outcome State Fault Refusal :=
  .next (command 0x02 (6 :: halfBytes value) fill (writeSettingBody 6 value noEffect) s)

/-- WRITE_SETTING of WAIT_LIMIT (R131). -/
def execWriteWaitLimit (value : Half) (fill : Nat) (s : State) : Host.Outcome State Fault Refusal :=
  .next (command 0x02 (7 :: halfBytes value) fill (writeSettingBody 7 value noEffect) s)

/-- WRITE_SETTING of SPLIT_OK (R35). -/
def execWriteSplitOk (value : Half) (fill : Nat) (s : State) : Host.Outcome State Fault Refusal :=
  .next (command 0x02 (8 :: halfBytes value) fill (writeSettingBody 8 value noEffect) s)

/-- WRITE_SETTING of NOTICE_MASK (R151). -/
def execWriteNoticeMask (value : Half) (fill : Nat) (s : State) : Host.Outcome State Fault Refusal :=
  .next (command 0x02 (9 :: halfBytes value) fill (writeSettingBody 9 value noticeMaskEffect) s)

/-- WRITE_SETTING by number (R172): a number over 9 is refused with BAD_ARGUMENT and stores nothing; a number 0 to 9 does
what that setting's own row does. -/
def execWriteSetting (number : Byte) (value : Half) (fill : Nat) (s : State) : Host.Outcome State Fault Refusal :=
  .next (command 0x02 (number :: halfBytes value) fill
    (writeSettingBody number.toNat value (settingEffect number.toNat)) s)

end Sys2Proof.Machine
end

