-- ==== Sys2Proof/Machine/TableCommands.lean ====
section
/-! DEFINITION. The slot tables, the commit, START and STOP (spec/01, spec/03). -/

namespace Sys2Proof.Machine

/-- A shadow edit is refused with BUSY while a commit is pending, whatever its arguments; otherwise `edit` checks them
(R8). -/
def shadowEdit (edit : State → MgmtReply) (s : State) : MgmtReply :=
  if s.sched.commit = .pending then refuse s .busy else edit s

/-- FRAME_LEN and slot time of the shadow (R169). -/
def shadowReply (s : State) : MgmtReply :=
  accept s (byteN s.shadow.frameLen :: be16N s.shadow.slotTime)

/-- WRITE_SLOT's edit (R9, R10): the shadow record is replaced whole, and echoed as stored. -/
def writeSlotEdit (index kind owner length donate : Byte) (s : State) : MgmtReply :=
  match indexArg index, slotRecordOf kind owner length donate with
  | some i, some r =>
    accept (s.setTables s.active { s.shadow with slots := s.shadow.slots.set i.val r i.isLt })
      ([index] ++ r.bytes ++ [byteN s.shadow.frameLen])
  | _, _ => refuse s .badArgument

/-- WRITE_SLOT (R8 to R11). -/
def execWriteSlot (index kind owner length donate : Byte) (fill : Nat) (s : State) :
    Host.Outcome State Fault Refusal :=
  .next (command 0x10 [index, kind, owner, length, donate] fill
    (shadowEdit (writeSlotEdit index kind owner length donate)) s)

/-- The record of a table, with the table's FRAME_LEN and the in-use indication (R14). -/
def readSlotReply (t : SlotTable) (i : Fin 32) (s : State) : MgmtReply :=
  accept s ([byteN i.val] ++ (t.slots.get i).bytes ++ [byteN t.frameLen, flag (i.val < t.frameLen)])

/-- READ_SLOT (R14): table 0 is the active one, 1 the shadow (R168). -/
def execReadSlot (table index : Byte) (fill : Nat) (s : State) : Host.Outcome State Fault Refusal :=
  .next (command 0x11 [table, index] fill
    (fun s1 =>
      match table.toNat, indexArg index with
      | 0, some i => readSlotReply s1.active i s1
      | 1, some i => readSlotReply s1.shadow i s1
      | _, _ => refuse s1 .badArgument) s)

/-- SET_FRAME_LEN's edit (R12): no record is altered. -/
def setFrameLenEdit (length : Byte) (s : State) : MgmtReply :=
  if 1 ≤ length.toNat ∧ length.toNat ≤ 32 then
    shadowReply (s.setTables s.active { s.shadow with frameLen := length.toNat })
  else refuse s .badArgument

/-- SET_FRAME_LEN (R8, R12). -/
def execSetFrameLen (length : Byte) (fill : Nat) (s : State) : Host.Outcome State Fault Refusal :=
  .next (command 0x12 [length] fill (shadowEdit (setFrameLenEdit length)) s)

/-- COMMIT_TABLE's effect (R54): STOPPED, the shadow is swapped in at once with TABLE_SWAPPED carrying FRAME_NUMBER as it
stands (R53); otherwise the commit state is PENDING. -/
def commitBody (s : State) : MgmtReply :=
  match s.sched.commit with
  | .pending => refuse s .pending
  | .none =>
    if s.sched.state = .stopped then accept (raise .tableSwapped (swapTables s)) []
    else refuse (s.setSched { s.sched with commit := .pending }) .pending

/-- COMMIT_TABLE (R54). -/
def execCommitTable (fill : Nat) (s : State) : Host.Outcome State Fault Refusal :=
  .next (command 0x13 [] fill commitBody s)

/-- CANCEL_COMMIT (R55). -/
def execCancelCommit (fill : Nat) (s : State) : Host.Outcome State Fault Refusal :=
  .next (command 0x14 [] fill (fun s1 => accept (s1.setSched { s1.sched with commit := .none }) []) s)

/-- COPY_ACTIVE (R8, R13). -/
def execCopyActive (fill : Nat) (s : State) : Host.Outcome State Fault Refusal :=
  .next (command 0x15 [] fill (shadowEdit fun s1 => shadowReply (s1.setTables s1.active s1.active)) s)

/-- START's effect (R50). -/
def startScheduler (s : State) : State :=
  match s.sched.state, s.sched.syncInForce with
  | .stopped, .internal => frameStart s
  | .stopped, .external => enterGap s
  | _, _ => s

/-- START (R50). -/
def execStart (fill : Nat) (s : State) : Host.Outcome State Fault Refusal :=
  .next (command 0x20 [] fill (fun s1 => accept (startScheduler s1) []) s)

/-- STOP's effect (R51). -/
def stopScheduler (s : State) : State :=
  match s.sched.state with
  | .running => s.setSched { s.sched with state := .draining }
  | .gap => enterStopped s
  | _ => s

/-- STOP (R51). -/
def execStop (fill : Nat) (s : State) : Host.Outcome State Fault Refusal :=
  .next (command 0x21 [] fill (fun s1 => accept (stopScheduler s1) []) s)

end Sys2Proof.Machine
end

