-- ==== Sys2Proof/Machine/Dispatch.lean ====
section
/-! DEFINITION. One arm per command: its meaning. -/

namespace Sys2Proof.Machine

def exec (i : Instr) (s : State) : Host.Outcome State Fault Refusal :=
  match i with
  | .resetNAsserted => Sys2Proof.Machine.execResetNAsserted s
  | .resetNReleased mselLow => Sys2Proof.Machine.execResetNReleased mselLow s
  | .prstNAsserted p => Sys2Proof.Machine.execPrstNAsserted p s
  | .prstNReleased p => Sys2Proof.Machine.execPrstNReleased p s
  | .syncInPulse => Sys2Proof.Machine.execSyncInPulse s
  | .syncWaitTimerExpiry => Sys2Proof.Machine.execSyncWaitTimerExpiry s
  | .maintReqAsserted => Sys2Proof.Machine.execMaintReqAsserted s
  | .maintReqWithdrawn => Sys2Proof.Machine.execMaintReqWithdrawn s
  | .maintGrant => Sys2Proof.Machine.execMaintGrant s
  | .slotEnd => Sys2Proof.Machine.execSlotEnd s
  | .issueDecision => Sys2Proof.Machine.execIssueDecision s
  | .atomicWriteBeat => Sys2Proof.Machine.execAtomicWriteBeat s
  | .memoryResponse status element => Sys2Proof.Machine.execMemoryResponse status element s
  | .wedge => Sys2Proof.Machine.execWedge s
  | .responseDelivery p => Sys2Proof.Machine.execResponseDelivery p s
  | .linkDropTakesEffect p => Sys2Proof.Machine.execLinkDropTakesEffect p s
  | .portResetEnd p => Sys2Proof.Machine.execPortResetEnd p s
  | .withheldRequestTaken p => Sys2Proof.Machine.execWithheldRequestTaken p s
  | .read p size beats addr => Sys2Proof.Machine.execRead p size beats addr s
  | .write p size addr data => Sys2Proof.Machine.execWrite p size addr data s
  | .linkedRead p size addr => Sys2Proof.Machine.execLinkedRead p size addr s
  | .conditionalWrite p size addr data => Sys2Proof.Machine.execConditionalWrite p size addr data s
  | .swap p size addr value => Sys2Proof.Machine.execSwap p size addr value s
  | .boundedAdd p size addr delta ceiling => Sys2Proof.Machine.execBoundedAdd p size addr delta ceiling s
  | .linkDrop p => Sys2Proof.Machine.execLinkDrop p s
  | .emptyFrame => Sys2Proof.Machine.execEmptyFrame s
  | .fillFrame bytes => Sys2Proof.Machine.execFillFrame bytes s
  | .badFrame bits => Sys2Proof.Machine.execBadFrame bits s
  | .badCommand bits => Sys2Proof.Machine.execBadCommand bits s
  | .readSetting number fill => Sys2Proof.Machine.execReadSetting number fill s
  | .writeSyncMode value fill => Sys2Proof.Machine.execWriteSyncMode value fill s
  | .writeSyncWait value fill => Sys2Proof.Machine.execWriteSyncWait value fill s
  | .writeLinkLimit value fill => Sys2Proof.Machine.execWriteLinkLimit value fill s
  | .writeLinkAgeLimit value fill => Sys2Proof.Machine.execWriteLinkAgeLimit value fill s
  | .writeGranule value fill => Sys2Proof.Machine.execWriteGranule value fill s
  | .writeMemSize value fill => Sys2Proof.Machine.execWriteMemSize value fill s
  | .writeMemTimeout value fill => Sys2Proof.Machine.execWriteMemTimeout value fill s
  | .writeWaitLimit value fill => Sys2Proof.Machine.execWriteWaitLimit value fill s
  | .writeSplitOk value fill => Sys2Proof.Machine.execWriteSplitOk value fill s
  | .writeNoticeMask value fill => Sys2Proof.Machine.execWriteNoticeMask value fill s
  | .writeSlot index kind owner length donate fill => Sys2Proof.Machine.execWriteSlot index kind owner length donate fill s
  | .readSlot table index fill => Sys2Proof.Machine.execReadSlot table index fill s
  | .setFrameLen length fill => Sys2Proof.Machine.execSetFrameLen length fill s
  | .commitTable fill => Sys2Proof.Machine.execCommitTable fill s
  | .cancelCommit fill => Sys2Proof.Machine.execCancelCommit fill s
  | .copyActive fill => Sys2Proof.Machine.execCopyActive fill s
  | .start fill => Sys2Proof.Machine.execStart fill s
  | .stop fill => Sys2Proof.Machine.execStop fill s
  | .portEnable port fill => Sys2Proof.Machine.execPortEnable port fill s
  | .portDisable port fill => Sys2Proof.Machine.execPortDisable port fill s
  | .portReset port fill => Sys2Proof.Machine.execPortReset port fill s
  | .readPort port fill => Sys2Proof.Machine.execReadPort port fill s
  | .readLink position fill => Sys2Proof.Machine.execReadLink position fill s
  | .purgeLinks port fill => Sys2Proof.Machine.execPurgeLinks port fill s
  | .peekNotice fill => Sys2Proof.Machine.execPeekNotice fill s
  | .takeNotice fill => Sys2Proof.Machine.execTakeNotice fill s
  | .recover fill => Sys2Proof.Machine.execRecover fill s
  | .recoverForce fill => Sys2Proof.Machine.execRecoverForce fill s
  | .clearState fill => Sys2Proof.Machine.execClearState fill s
  | .readGate fill => Sys2Proof.Machine.execReadGate fill s
  | .writeSetting number value fill => Sys2Proof.Machine.execWriteSetting number value fill s

end Sys2Proof.Machine
end

