-- ==== Sys2Proof/Safety.lean ====
section
/-! DEFINITION. What a good state of the WG2408 is, block by block, in the terms of the spec's laws. -/

namespace Sys2Proof.Safety

open Sys2Proof.Machine

/-- A record's length is in range (R1). -/
abbrev RecordOk (r : SlotRecord) : Prop := 1 ≤ r.length ∧ r.length ≤ 64

/-- A table holds records in range and a frame length of 1 to 32 (R3). -/
abbrev TableOk (t : SlotTable) : Prop := (∀ i : Fin 32, RecordOk (t.slots.get i)) ∧ 1 ≤ t.frameLen ∧ t.frameLen ≤ 32

/-- Every setting is in its range (R170). -/
abbrev SettingsOk (t : Settings) : Prop :=
  (1 ≤ t.syncWait ∧ t.syncWait ≤ 65535) ∧ (t.linkLimit = 1 ∨ t.linkLimit = 2) ∧ t.linkAgeLimit ≤ 255 ∧
    (t.granule = 16 ∨ t.granule = 32 ∨ t.granule = 64) ∧ t.memSizeCode ≤ 12 ∧ t.memTimeout ≤ 4095 ∧
    t.waitLimit ≤ 255 ∧ t.noticeMask.getLsbD 0 = false

/-- No slot exists: slot index and budget are 0, and there is no grantee (R40). -/
abbrev NoSlot (c : Scheduler) : Prop := c.record = none ∧ c.slot = 0 ∧ c.budget = 0 ∧ c.grantee = none

/-- The scheduler's laws: which states run a slot and which do not (R40), a slot keeps its active record and lies in use
(R5), its budget stays within its length (R26), a QUIET slot has no grantee (R24), the timer runs in GAP only (R42,
R51), and the mode in force and the commit state are as R46, R50 and R52 give them in GAP and STOPPED. -/
abbrev SchedOk (s : State) : Prop :=
  (s.resetAsserted = true → s.sched.state = .running ∧ NoSlot s.sched) ∧
    (s.sched.state = .stopped ∨ s.sched.state = .gap → NoSlot s.sched) ∧
    (s.resetAsserted = false → (s.sched.state = .running ∨ s.sched.state = .draining) →
      s.sched.record = some (s.active.slots.get s.sched.slot) ∧ s.sched.slot.val < s.active.frameLen ∧
        s.sched.budget ≤ (s.active.slots.get s.sched.slot).length ∧
        ((s.active.slots.get s.sched.slot).isQuiet = true → s.sched.grantee = none)) ∧
    (s.sched.timer.isSome = true ↔ s.sched.state = .gap) ∧
    (s.sched.state = .gap → s.sched.syncInForce = .external) ∧
    (s.sched.state = .stopped → s.sched.syncInForce = s.settings.syncMode ∧ s.sched.commit = .none)

/-- Tables, settings and scheduler together: the invariant of the frame. -/
abbrev FrameInv (s : State) : Prop := TableOk s.active ∧ TableOk s.shadow ∧ SettingsOk s.settings ∧ SchedOk s

/-- FRAME_NUMBER counts the pulses of FRAME_MARK since the pin reset, modulo 65536 (R43). -/
abbrev FrameCountInv (s : State) : Prop := BitVec.ofNat 16 s.frameMarks = s.sched.frameNumber

/-- The outstanding list against the atomic record (R106): with the record empty no atomic read beat is outstanding; in
READING the one atomic read beat is the last beat outstanding; in WRITE_OWED no beat is. -/
def atomicHold (m : MemPort) (a : Option AtomicRecord) : Bool :=
  match a with
  | none => m.outstanding.all fun b => b.kind ≠ .atomicRead
  | some a =>
    match a.phase with
    | .reading =>
      (m.outstanding.getLast?.any fun b => b.kind = .atomicRead) &&
        m.outstanding.dropLast.all fun b => b.kind ≠ .atomicRead
    | .writeOwed _ _ _ => m.outstanding.isEmpty

/-- The memory path's laws: the outstanding list holds at most 16 beats (R134); READY owes nothing (R138), WEDGED has
nothing outstanding and no atomic update (R139); the atomic hold (R106); the quiet window is open exactly in a QUIET slot
(R145), which has no grantee (R24), and no slot exists in STOPPED, in GAP (R40) and while RESET_N is asserted
(R41); MAINT_GRANT stands only in an open window, with nothing outstanding and no atomic update, and is counted once for
the window (R145). -/
abbrev PathInv (s : State) : Prop :=
  (s.sched.state = .stopped ∨ s.sched.state = .gap ∨ s.resetAsserted = true → s.sched.record = none) ∧
    s.mem.outstanding.length ≤ 16 ∧ s.mem.owed ≤ 16 ∧ (s.mem.state = .ready → s.mem.owed = 0) ∧
    (s.mem.state = .wedged → s.mem.outstanding = [] ∧ s.atomic = none) ∧ atomicHold s.mem s.atomic = true ∧
    s.mem.quietOpen = s.sched.record.any SlotRecord.isQuiet ∧ (s.mem.quietOpen = true → s.sched.grantee = none) ∧
    (s.mem.maintGrant = true →
      s.mem.quietOpen = true ∧ s.mem.windowGiven = true ∧ s.mem.outstanding = [] ∧ s.atomic = none)

/-- No two links of the table have the same holder and the same granule base (R59). -/
abbrev LinksDistinct (links : List Link) : Prop :=
  links.Pairwise fun a b => ¬(a.holder = b.holder ∧ a.base = b.base)

/-- The link table's laws: at most 12 links, at most LINK_LIMIT of one holder, no two of one holder on one granule (R59),
bases that are multiples of GRANULE and ages of 0 to 255 (R58), none while WEDGED (R73), none of a port that is DISABLED
or RESETTING (R73, R124), and a DISABLED port's queue is empty (R124). -/
abbrev LinkInv (s : State) : Prop :=
  (s.settings.linkLimit = 1 ∨ s.settings.linkLimit = 2) ∧ s.links.length ≤ 12 ∧
    (∀ p : Port, s.links.countP (fun l => l.holder == p) ≤ s.settings.linkLimit) ∧ LinksDistinct s.links ∧
    (∀ l ∈ s.links, granuleBase s.settings.granule l.base = l.base ∧ l.age ≤ 255) ∧
    (s.mem.state = .wedged → s.links = []) ∧
    (∀ p : Port, (s.port p).state = .disabled ∨ (s.port p).state = .resetting → ∀ l ∈ s.links, l.holder ≠ p) ∧
    ∀ p : Port, (s.port p).state = .disabled → (s.port p).queue = []

/-- The queue of one port: at most four entries (R119); no LINK DROP is left that every older entry has let through
(R93); the enable setting agrees with the state (R124, R125, R126); the wait counter is 0 to 255 (R130); a RESETTING port
holds marked entries only, in PARTIAL or ISSUED, and no other port holds a marked one (R127, R128). -/
abbrev PortOk (x : PortRec) : Prop :=
  x.queue.length ≤ 4 ∧ dropDue x.queue = false ∧ (x.state = .opened → x.enabled = true) ∧
    (x.state = .halting ∨ x.state = .disabled → x.enabled = false) ∧ x.waitCounter ≤ 255 ∧
    (x.state = .resetting → ∀ e ∈ x.queue, e.marked = true ∧ (e.state = .partly ∨ e.state = .issued)) ∧
    (x.state ≠ .resetting → ∀ e ∈ x.queue, e.marked = false)

/-- Every port's queue is as it should be. -/
abbrev PortsInv (s : State) : Prop := ∀ p : Port, PortOk (s.port p)

/-- The entry of port p with an identity is in its queue and f holds of it. -/
def hasEntry (s : State) (p : Port) (id : Nat) (f : Entry → Bool) : Bool :=
  (s.port p).queue.any fun e => e.id == id && f e

/-- The laws that tie the outstanding list and the atomic record to the queues. Identities and beat numbers (log 11) are
below `nextId`, those of the entries of all queues differ, and so do those of the outstanding beats. Only a burst or an
atomic update is ever PARTIAL (R119). Each beat names a PARTIAL or ISSUED entry of its port, and an atomic read beat the
entry of the atomic record (R133); the atomic record names a PARTIAL SWAP or BOUNDED ADD of its port (R101, R105); an
ISSUED entry has a beat outstanding (R119, R136). -/
abbrev QueueInv (s : State) : Prop :=
  (∀ p : Port, ∀ e ∈ (s.port p).queue, e.id < s.nextId) ∧
    (∀ p : Port, (s.port p).queue.Pairwise fun e f => e.id ≠ f.id) ∧
    (∀ p q : Port, p ≠ q → ∀ e ∈ (s.port p).queue, ∀ f ∈ (s.port q).queue, e.id ≠ f.id) ∧
    (∀ b ∈ s.mem.outstanding, b.serial < s.nextId) ∧
    s.mem.outstanding.Pairwise (fun b c => b.serial ≠ c.serial) ∧
    (∀ l ∈ s.links, l.openedBy < s.nextId) ∧
    (∀ p : Port, ∀ e ∈ (s.port p).queue,
      e.state = .partly → isBurst e.req.kind = true ∨ isAtomic e.req.kind = true) ∧
    (∀ b ∈ s.mem.outstanding,
      hasEntry s b.port b.entry (fun e => e.state == .partly || e.state == .issued) = true) ∧
    (∀ b ∈ s.mem.outstanding,
      b.kind = .atomicRead → s.atomic.any (fun a => a.port == b.port && a.entry == b.entry) = true) ∧
    (s.atomic.all fun a => hasEntry s a.port a.entry fun e => e.state == .partly && isAtomic e.req.kind) = true ∧
    ∀ p : Port, ∀ e ∈ (s.port p).queue,
      e.state = .issued → s.mem.outstanding.any (fun b => b.port == p && b.entry == e.id) = true

/-- The notice queue's laws: at most 8 records (R148), repeats of 1 to 255 (R147), at most one record for each STARVED
port, one SYNC_EARLY and one SYNC_MISSING (R149), and the NOTICE line asserted exactly while a record of a kind that is
not masked is queued (R151). -/
abbrev NoticeInv (s : State) : Prop :=
  s.notices.records.length ≤ 8 ∧ (∀ r ∈ s.notices.records, 1 ≤ r.repeats ∧ r.repeats ≤ 255) ∧
    s.notices.records.Pairwise (fun a b => a.notice.coalesces = true → a.notice ≠ b.notice) ∧
    s.notices.line = noticeLine s.settings.noticeMask s.notices.records

/-! ### The words the statements use -/

/-- The outcome is a next state of which P holds. -/
abbrev Completes (o : Host.Outcome State Fault Refusal) (P : State → Prop) : Prop := ∃ t, o = .next t ∧ P t

/-- Management frames are taken: RESET_N is not asserted, and no frame is being discarded after its release (R167). -/
abbrev Listening (s : State) : Prop := s.resetAsserted = false ∧ s.mgmt.frame ≠ .discarding

/-- A number as two bytes, most significant first (R162). -/
def twoBytes (v : Nat) : List Byte := [BitVec.ofNat 8 (v / 256), BitVec.ofNat 8 v]

/-- A number as four bytes, most significant first (R162). -/
def fourBytes (v : Nat) : List Byte := twoBytes (v / 65536) ++ twoBytes v

/-- The bits MDO carries in a frame of n bits: the k-th bit of the buffer, and low beyond its end (R162). -/
def readoutBits (r : MgmtResponse) (n : Nat) : List Bool :=
  (List.range n).map fun k => (bitsOfBytes (r.status.code :: r.sequence :: r.data)).getD k false

/-- The sequence byte: the count after the frame in the upper four bits, the low four bits of the code in the lower
(R166). -/
def sequenceOf (s : State) (code : Byte) : Byte :=
  BitVec.ofNat 8 (16 * ((s.mgmt.seqCount.toNat + 1) % 16) + code.toNat % 16)

/-- The management port after a frame of n bits that made a response: no frame in progress, the buffer replaced, the
sequence count raised (R161, R164, R166). That the readout position is then n (log 9) and that the bits MDO carried in the
frame are kept (log 12) is the model's choice, here and in every statement written with `answered`; R162 gives those bits,
and that the position returns to the first bit at the next fall of MSEL_n. -/
def answered (s : State) (code : Byte) (n : Nat) (status : MgmtStatus) (data : List Byte) : Mgmt :=
  { frame := .none, response := ⟨status, sequenceOf s code, data⟩, readout := n, seqCount := s.mgmt.seqCount + 1,
    mdo := readoutBits s.mgmt.response n }

/-- The commands of R168 with their frame lengths. -/
def commandTable : List (Byte × Nat) :=
  [(0x01, 2), (0x02, 4), (0x10, 6), (0x11, 3), (0x12, 2), (0x13, 1), (0x14, 1), (0x15, 1), (0x20, 1), (0x21, 1),
    (0x30, 2), (0x31, 2), (0x32, 2), (0x33, 2), (0x40, 2), (0x41, 2), (0x50, 1), (0x51, 1), (0x60, 1), (0x61, 1),
    (0x70, 1), (0x71, 1)]

/-- The stored values of the settings 0 to 9, in the order of R170. -/
def storedValues (t : Settings) : List Nat :=
  [if t.syncMode = .internal then 0 else 1, t.syncWait, t.linkLimit, t.linkAgeLimit, t.granule, t.memSizeCode,
    t.memTimeout, t.waitLimit, t.splitOk.toNat, t.noticeMask.toNat]

/-- The range column of R170; a number over 9 names no setting. -/
abbrev SettingRange (number value : Nat) : Prop :=
  (number = 0 ∧ value ≤ 1) ∨ (number = 1 ∧ 1 ≤ value ∧ value ≤ 65535) ∨ (number = 2 ∧ 1 ≤ value ∧ value ≤ 2) ∨
    (number = 3 ∧ value ≤ 255) ∨ (number = 4 ∧ (value = 16 ∨ value = 32 ∨ value = 64)) ∨ (number = 5 ∧ value ≤ 12) ∨
    (number = 6 ∧ value ≤ 4095) ∨ (number = 7 ∧ value ≤ 255) ∨ (number = 8 ∧ value ≤ 255) ∨
    (number = 9 ∧ value ≤ 255 ∧ value % 2 = 0)

/-- The slot time of a table: the sum of the lengths of the records at the indices below FRAME_LEN (R4). -/
def slotTimeOf (t : SlotTable) : Nat :=
  (((List.finRange 32).filter fun i => i.val < t.frameLen).map fun i => (t.slots.get i).length).sum

/-- The number of links of port p that f selects. -/
def linksOf (s : State) (p : Port) (f : Link → Bool) : Nat := s.links.countP fun l => f l && l.holder == p

/-- The links that f selects close with a cause, each recorded in its holder's loss record (R74): n closings of one port
set LAST_LOSS to the cause and raise LOSS_COUNT by n, and no closing leaves the record as it stands. -/
abbrev Closed (s t : State) (f : Link → Bool) (cause : LossCause) : Prop :=
  t.links = s.links.filter (fun l => !f l) ∧
    (∀ p : Port,
      t.port p =
        if linksOf s p f = 0 then s.port p
        else
          { s.port p with
            lastLoss := some cause, lossCount := (s.port p).lossCount + BitVec.ofNat 32 (linksOf s p f) }) ∧
    t = { s with links := t.links, ports := t.ports }

/-- The pool pick of R23 in s over the ports that are ready for the slot: the ports are examined from POOL_NEXT upwards,
modulo 8; the first that is ready is picked and POOL_NEXT becomes the one after it; with none ready POOL_NEXT stays. -/
abbrev Picked (s : State) (ready : Port → Bool) (g : Option Port) (next : Port) : Prop :=
  (∃ k : Fin 8,
      ready (s.sched.poolNext + k) = true ∧
        (∀ j : Fin 8, j < k → ready (s.sched.poolNext + j) = false) ∧
          g = some (s.sched.poolNext + k) ∧ next = s.sched.poolNext + k + 1) ∨
    ((∀ p : Port, ready p = false) ∧ g = none ∧ next = s.sched.poolNext)

/-- Port p is ready for an OWNED slot of owner o and length n: R18's ready test; whether it stands for the owner while that
is HALTING is left free (R10, R18; log 22). -/
def readyInOwned (s : State) (o : Port) (n : Nat) (p : Port) : Bool :=
  if p = o ∧ (s.port o).state = .halting ∧ Config.haltingOwnerReady = false then false else portReady s n p

/-- The grantee of a slot of a record that starts in s, and POOL_NEXT after the choice (R10, R21 to R25). -/
abbrev Granted (s : State) (r : SlotRecord) (g : Option Port) (next : Port) : Prop :=
  if s.mem.state = .wedged then g = none ∧ next = s.sched.poolNext
  else
    match r with
    | .owned o n d =>
      if readyInOwned s o n o = true then g = some o ∧ next = s.sched.poolNext
      else if d = true then Picked s (readyInOwned s o n) g next
      else g = none ∧ next = s.sched.poolNext
    | .pool n => Picked s (portReady s n) g next
    | .quiet _ => g = none ∧ next = s.sched.poolNext

/-- The memory port and MAINT_WINDOWS at the start of a slot (R145): a QUIET slot opens the quiet window, and MAINT_GRANT
is asserted at the opening when its conditions hold. -/
abbrev WindowAtStart (s t : State) (r : SlotRecord) : Prop :=
  let due := r.isQuiet && !s.mem.maintGrant && s.mem.maintReq && s.mem.outstanding.isEmpty && s.atomic.isNone
  t.mem.quietOpen = r.isQuiet ∧ t.mem.maintGrant = (s.mem.maintGrant || due) ∧
    t.mem.windowGiven = (if r.isQuiet then due else s.mem.windowGiven) ∧
      t.counters.maintWindows = s.counters.maintWindows + (if due then 1 else 0)

/-- The slot of index i of the active table starts in s (R5, R20 to R26), and what else is in t is as in s. -/
abbrev SlotStarted (s t : State) (i : Fin 32) : Prop :=
  let r := s.active.slots.get i
  Granted s r t.sched.grantee t.sched.poolNext ∧ WindowAtStart s t r ∧
    t =
      { s with
        sched :=
          { s.sched with
            slot := i, budget := r.length, record := some r, grantee := t.sched.grantee,
            poolNext := t.sched.poolNext }
        mem :=
          { s.mem with
            quietOpen := t.mem.quietOpen, maintGrant := t.mem.maintGrant, windowGiven := t.mem.windowGiven }
        counters := { s.counters with maintWindows := t.counters.maintWindows } }

/-- The wait counter of a port after a frame mark taken in s (R130). -/
def counterAtMark (s : State) (p : Port) : Nat :=
  if s.mem.state = .wedged ∨ s.mem.wedgedSinceMark = true then (s.port p).waitCounter
  else if (s.port p).watching = true then min 255 ((s.port p).waitCounter + 1)
  else 0

/-- Port p raises STARVED at a frame mark taken in s (R131). -/
def starvesAtMark (s : State) (p : Port) : Bool :=
  s.settings.waitLimit != 0 && s.settings.waitLimit ≤ counterAtMark s p && !(s.port p).starved

/-- The links after the increments of a frame mark (R71). -/
def agedLinks (s : State) : List Link := s.links.map fun l => { l with age := min 255 (l.age + 1) }

/-- The link closes AGED at a frame mark of s (R71). -/
def tooOld (s : State) (l : Link) : Bool := s.settings.linkAgeLimit != 0 && s.settings.linkAgeLimit < l.age

/-- Port p's record after a frame mark taken in s: loss record, wait counter, STARVED episode and frame watch (R71, R130,
R131). -/
def portAtMark (s : State) (p : Port) : PortRec :=
  let lost := (agedLinks s).countP fun l => tooOld s l && l.holder == p
  let x := s.port p
  { x with
    lastLoss := if lost = 0 then x.lastLoss else some .aged
    lossCount := x.lossCount + BitVec.ofNat 32 lost
    waitCounter := counterAtMark s p
    starved := x.starved || starvesAtMark s p
    watching := (issueHead x).isSome && s.mem.state == .ready }

/-- The notice queue after raises taken in the order of a list (R148). -/
def afterRaises (mask : Byte) (frame : Half) (q : NoticeQueue) (l : List Notice) : NoticeQueue :=
  l.foldl (fun q n => q.raise mask n frame) q

/-- The notices of a frame start (R42, R131, R152): TABLE_SWAPPED if there was a swap, and then one STARVED of each port
that raises it, in some order. -/
def RaisedAtFrameStart (s t : State) : Prop :=
  ∃ order : List Port,
    order.Perm (Port.all.filter fun p => starvesAtMark s p) ∧
      t.notices =
        afterRaises s.settings.noticeMask t.sched.frameNumber s.notices
          ((if s.sched.commit = .pending then [Notice.tableSwapped] else []) ++ order.map Notice.starved)

/-- What a frame start makes of s (R42, R43): the swap if a commit is pending, FRAME_NUMBER and FRAME_MARK, slot 0 of the
table then active, and the frame mark at the links and the ports. What else is in t is as in s; `freeCount` is free. -/
abbrev FrameStarted (s t : State) : Prop :=
  let r := t.active.slots.get 0
  t.active = (if s.sched.commit = .pending then s.shadow else s.active) ∧
    Granted s r t.sched.grantee t.sched.poolNext ∧ WindowAtStart s t r ∧
      (∀ p : Port, t.port p = portAtMark s p) ∧ t.links = (agedLinks s).filter (fun l => !tooOld s l) ∧
        RaisedAtFrameStart s t ∧
          t =
            { s with
              active := t.active
              sched :=
                { s.sched with
                  state := .running, slot := 0, budget := r.length, record := some r, grantee := t.sched.grantee,
                  frameNumber := s.sched.frameNumber + 1, commit := .none, timer := none,
                  poolNext := t.sched.poolNext }
              ports := t.ports
              links := t.links
              mem :=
                { s.mem with
                  quietOpen := t.mem.quietOpen, maintGrant := t.mem.maintGrant, windowGiven := t.mem.windowGiven,
                  wedgedSinceMark := s.mem.state == .wedged }
              notices := t.notices
              counters := { s.counters with maintWindows := t.counters.maintWindows }
              frameMarks := s.frameMarks + 1
              freeCount := t.freeCount }

/-- What a frame mark and the counting of its frame make of s (R42, R43), slot 0 not yet started: the swap if a commit is
pending, FRAME_NUMBER and FRAME_MARK, and the mark at the links and the ports. What else is in u is as in s; `freeCount` is
free. -/
abbrev MarkTaken (s u : State) : Prop :=
  (∀ p : Port, u.port p = portAtMark s p) ∧ u.links = (agedLinks s).filter (fun l => !tooOld s l) ∧
    RaisedAtFrameStart s u ∧
      u =
        { s with
          active := if s.sched.commit = .pending then s.shadow else s.active
          sched := { s.sched with frameNumber := s.sched.frameNumber + 1, commit := .none }
          ports := u.ports
          links := u.links
          mem := { s.mem with wedgedSinceMark := s.mem.state == .wedged }
          notices := u.notices
          frameMarks := s.frameMarks + 1
          freeCount := u.freeCount }

/-- What the end of a slot does first (R108, R145): an atomic update in progress is marked overhanging, the quiet window
closes and MAINT_GRANT is withdrawn. -/
def slotClosed (s : State) : State :=
  { s with
    atomic := s.atomic.map fun a => { a with overhanging := true }
    mem := { s.mem with quietOpen := false, maintGrant := false } }

/-- The scheduler enters STOPPED (R51): no slot, the written mode in force, and a pending commit swapped in with
TABLE_SWAPPED carrying FRAME_NUMBER as it stands. -/
abbrev Stopped (s t : State) : Prop :=
  let swap := s.sched.commit == .pending
  t =
    { s with
      active := if swap then s.shadow else s.active
      sched :=
        { s.sched with
          state := .stopped, slot := 0, budget := 0, record := none, grantee := none, timer := none, commit := .none,
          syncInForce := s.settings.syncMode }
      notices :=
        if swap then s.notices.raise s.settings.noticeMask .tableSwapped s.sched.frameNumber else s.notices }

/-- The scheduler enters GAP with a mode in force (R45, R50): no slot, and the timer starts with SYNC_WAIT. -/
abbrev InGap (s t : State) (m : SyncMode) : Prop :=
  t =
    { s with
      sched :=
        { s.sched with
          state := .gap, slot := 0, budget := 0, record := none, grantee := none, syncInForce := m,
          timer := some s.settings.syncWait } }

/-- The outstanding list with the deadlines one lower (R135). -/
def agedBeats (s : State) : List BeatRecord :=
  s.mem.outstanding.map fun b => { b with deadline := b.deadline.map (· - 1) }

/-- The beats that t has outstanding and s had not: those behind the beats of s. -/
def newBeats (s t : State) : List BeatRecord := t.mem.outstanding.drop s.mem.outstanding.length

/-- The deadline that a beat issued in s takes (R135). -/
def deadlineAtIssue (s : State) : Option Nat := if s.settings.memTimeout = 0 then none else some s.settings.memTimeout

/-- The port charged with the slack of a beat time, by the record of the slot in progress: an OWNED slot's owner (R37). -/
def chargedPort : Option SlotRecord → Option Port
  | some (.owned o _ _) => some o
  | _ => none

/-- The slack of a beat time is charged to POOL_SLACK: the slot in progress is a POOL slot (R37). -/
def chargedPool : Option SlotRecord → Bool
  | some (.pool _) => true
  | _ => false

/-- Only what a beat time can reach differs between s and t; at a port, its queue, its watch and episode, and the counters
a beat or a judgement moves. -/
abbrev BeatFrame (s t : State) : Prop :=
  t =
      { s with
        sched := { s.sched with budget := t.sched.budget, timer := t.sched.timer }
        ports := t.ports
        links := t.links
        atomic := t.atomic
        mem := { s.mem with outstanding := t.mem.outstanding }
        memBeat := t.memBeat
        counters :=
          { s.counters with poolSlack := t.counters.poolSlack, overhangCount := t.counters.overhangCount }
        nextId := t.nextId } ∧
    ∀ q : Port,
      t.port q =
        { s.port q with
          queue := (t.port q).queue, watching := (t.port q).watching, starved := (t.port q).starved,
          granted := (t.port q).granted, slack := (t.port q).slack, condOk := (t.port q).condOk,
          condFail := (t.port q).condFail, lastLoss := (t.port q).lastLoss, lossCount := (t.port q).lossCount }

/-- Port q issued nothing and judged nothing between s and t. -/
abbrev Unserved (s t : State) (q : Port) : Prop :=
  (t.port q).queue = (s.port q).queue ∧ (t.port q).watching = (s.port q).watching ∧
    (t.port q).starved = (s.port q).starved ∧ (t.port q).condOk = (s.port q).condOk ∧
      (t.port q).condFail = (s.port q).condFail

/-- One beat was issued between s and t, as port p's: its record is the youngest outstanding, it was driven to the memory
controller, and p's watch and STARVED episode are closed (R130, R131, R134). -/
abbrev BeatIssued (s t : State) (p : Port) (entry index : Nat) (kind : BeatKind) (a : Word) (bytes : Nat)
    (value : Option Elem) : Prop :=
  t.mem.outstanding =
      agedBeats s ++
        [{ port := p, entry := entry, index := index, kind := kind, addr := a, deadline := deadlineAtIssue s,
           serial := s.nextId }] ∧
    t.memBeat = some { write := value.isSome, addr := a, bytes := bytes, element := value } ∧
      t.nextId = s.nextId + 1 ∧ (t.port p).watching = false ∧ (t.port p).starved = false

/-- No beat was issued between s and t. -/
abbrev NoBeat (s t : State) : Prop :=
  t.mem.outstanding = agedBeats s ∧ t.memBeat = none ∧ t.nextId = s.nextId ∧ t.links = s.links ∧
    t.atomic = s.atomic ∧ (∀ q : Port, Unserved s t q) ∧
      ∀ q : Port, (t.port q).lastLoss = (s.port q).lastLoss ∧ (t.port q).lossCount = (s.port q).lossCount

/-- The queue with the entry of an identity changed by f. -/
def changed (id : Nat) (f : Entry → Entry) (q : List Entry) : List Entry := q.map fun e => if e.id = id then f e else e

/-- The loss record after n closings with a cause and then m closings DROPPED (R74, R93). -/
abbrev LossIs (x y : PortRec) (cause : LossCause) (n m : Nat) : Prop :=
  y.lastLoss = (if m ≠ 0 then some .dropped else if n ≠ 0 then some cause else x.lastLoss) ∧
    y.lossCount = x.lossCount + BitVec.ofNat 32 n + BitVec.ofNat 32 m

/-- The links of a list that port p holds. -/
def heldBy (p : Port) (links : List Link) : Nat := links.countP fun l => l.holder == p

/-- The links without those of port p, when a LINK DROP of its queue takes effect; otherwise as they are (R93). -/
def withDrops (p : Port) (q : List Entry) (links : List Link) : List Link :=
  if dropDue q then links.filter fun l => !(l.holder == p) else links

/-- The links closed DROPPED when port p's queue has come to be q (R93). -/
def dropsOf (p : Port) (q : List Entry) (links : List Link) : Nat := if dropDue q then heldBy p links else 0

/-- The links that stand after a write beat on a granule base (R69, R86). -/
def withoutBase (g : Word) (links : List Link) : List Link := links.filter fun l => !(l.base == g)

/-- What the issue of a write beat of port p on address a, with p's queue then q, makes of the links and of every loss
record (R69, R93); `links` are the links at the beat. -/
abbrev WriteActs (s t : State) (p : Port) (a : Word) (q : List Entry) (links : List Link) : Prop :=
  let g := granuleBase s.settings.granule a
  let left := withoutBase g links
  t.links = withDrops p q left ∧
    ∀ r : Port,
      LossIs (s.port r) (t.port r) (if r = p then .selfWrite else .overwritten)
        (links.countP fun l => l.base == g && l.holder == r) (if r = p then dropsOf p q left else 0)

/-- What the issue of a LINKED READ beat of port p makes of the links (R65, R66, R67): the link of p on the granule base
if it holds one moves to youngest; otherwise p's oldest link goes if p holds LINK_LIMIT links, then the oldest link of
the table goes if 12 stand, and the new link is the youngest. -/
def linksAfterLinkedRead (s : State) (p : Port) (a : Word) (bytes : Nat) : List Link :=
  let g := granuleBase s.settings.granule a
  let link : Link := { holder := p, base := g, width := bytes, age := 0, openedBy := s.nextId }
  if s.links.any (fun l => l.holder == p && l.base == g) then
    s.links.filter (fun l => !(l.holder == p && l.base == g)) ++ [link]
  else
    let s1 :=
      if s.settings.linkLimit ≤ heldBy p s.links then s.links.eraseP (fun l => l.holder == p) else s.links
    (if 12 ≤ s1.length then s1.tail else s1) ++ [link]

/-- The state at which the rest of the beat time goes on after a failed judgement of port p's CONDITIONAL WRITE entry e
(R87, R88): the entry is READY_TO_ANSWER, COND_FAIL is one higher, on WIDTH the link is closed, and the LINK DROPs behind
the entry take effect. -/
def afterFailure (s : State) (p : Port) (e : Entry) (v : Verdict) : State :=
  let g := granuleBase s.settings.granule e.req.addr
  let mine := fun l : Link => l.holder == p && l.base == g
  let q := changed e.id (fun x => { x with state := .ready v }) (s.port p).queue
  let left := if v = .width then s.links.filter fun l => !mine l else s.links
  let n := if v = .width then s.links.countP mine else 0
  let m := dropsOf p q left
  let x := s.port p
  (s.setPort p
    { x with
      queue := settleDrops q
      condFail := x.condFail + 1
      watching := false
      starved := false
      lastLoss := if m ≠ 0 then some .dropped else if n ≠ 0 then some .width else x.lastLoss
      lossCount := x.lossCount + BitVec.ofNat 32 n + BitVec.ofNat 32 m }).setLinks (withDrops p q left)

/-- A beat time can decide on the head e of the grantee p of the slot in progress: no timed happening is due, the memory
port is READY with 15 or fewer beats outstanding, and no atomic update is in its hold (R27, R84, R105). -/
abbrev MayIssue (s : State) (p : Port) (e : Entry) : Prop :=
  beatCanPass s = true ∧ s.mem.state = .ready ∧ s.mem.outstanding.length < 16 ∧ s.atomic = none ∧
    s.sched.record.isSome = true ∧ s.sched.grantee = some p ∧ issueHead (s.port p) = some e

/-- The request record of a request command (R115): fields that do not belong to its kind are not kept. -/
def requestOf : Instr → Option (Port × Request)
  | .read p size beats a => some (p, { kind := .read, addr := a, size := size, beats := beats.toNat, data := [] })
  | .write p size a data => some (p, { kind := .write, addr := a, size := size, beats := data.length, data := data })
  | .linkedRead p size a => some (p, { kind := .linkedRead, addr := a, size := size, beats := 1, data := [] })
  | .conditionalWrite p size a d =>
    some (p, { kind := .conditionalWrite, addr := a, size := size, beats := 1, data := [d] })
  | .swap p size a v => some (p, { kind := .swap, addr := a, size := size, beats := 1, data := [v] })
  | .boundedAdd p size a d c =>
    some (p, { kind := .boundedAdd, addr := a, size := size, beats := 1, data := [d, c] })
  | .linkDrop p => some (p, { kind := .linkDrop, addr := 0, size := 0, beats := 1, data := [] })
  | _ => none

/-- A REFUSED response with its reason and nothing else (R116). -/
def refusedWith (why : RefuseReason) : Response :=
  { status := .refused why, data := [], firstBad := none, oldValue := none, clamped := none }

/-- The port takes the request r in s (R118, R120, R121, R93). OPEN: appended as WAITING, or as REFUSAL. HALTING: appended
as REFUSAL. DISABLED: answered at once. A refused request keeps no write data (R115). -/
abbrev Taken (s t : State) (p : Port) (r : Request) : Prop :=
  let x := s.port p
  let closed := x.state = .halting ∨ x.state = .disabled
  let entry := fun st : EntryState =>
    ({ id := s.nextId, req := r, state := st, nextBeat := 0, data := [], firstBad := none, oldValue := none,
       clamped := none, marked := false } : Entry)
  let q := x.queue ++ [entry .waiting]
  (∀ p' : Port, p' ≠ p → t.port p' = s.port p') ∧
    match firstFailure r (memSize s.settings.memSizeCode) closed with
    | none =>
      t.port p =
          { x with
            queue := settleDrops q
            lastLoss := if dropsOf p q s.links = 0 then x.lastLoss else some .dropped
            lossCount := x.lossCount + BitVec.ofNat 32 (dropsOf p q s.links) } ∧
        t = { s with ports := t.ports, links := withDrops p q s.links, nextId := s.nextId + 1 }
    | some why =>
      if x.state = .disabled then
        t.port p = { x with refused := x.refused + 1, lastResponse := some (refusedWith why) } ∧
          t = { s with ports := t.ports }
      else
        t.port p =
            { x with
              refused := x.refused + 1
              queue := x.queue ++ [{ entry (.refusal why) with req := { r with data := [] } }] } ∧
          t = { s with ports := t.ports, nextId := s.nextId + 1 }

/-- An entry stays in the queue at the start of a port reset, marked for discard (R127, step 4). -/
def keptAtReset (s : State) (e : Entry) : Bool :=
  (e.state == .partly || e.state == .issued) &&
    (s.mem.outstanding.any (fun b => b.entry == e.id) || s.atomic.any fun a => a.entry == e.id)

/-- A port reset of port p starts in s (R127). -/
abbrev ResetStarted (s t : State) (p : Port) : Prop :=
  let n := heldBy p s.links
  let x := s.port p
  t.port p =
      { x with
        state := .resetting
        queue := (x.queue.filter (keptAtReset s)).map fun e => { e with marked := true }
        waitCounter := 0
        watching := false
        starved := false
        lastLoss := if n = 0 then x.lastLoss else some .purged
        lossCount := x.lossCount + BitVec.ofNat 32 n } ∧
    (∀ q : Port, q ≠ p → t.port q = s.port q) ∧
      t = { s with ports := t.ports, links := s.links.filter fun l => !(l.holder == p) }

/-- RESET_N is asserted and every block is held at its reset values (R7, R39, R60, R101, R124, R133, R148, R157, R161,
R170); the levels of the input pins and the requests presented are as they are. -/
abbrev HeldInReset (s : State) : Prop :=
  s.resetAsserted = true ∧
    s.sched =
      { state := .running, slot := 0, budget := 0, record := none, grantee := none, frameNumber := 0, commit := .none,
        timer := none, syncInForce := .internal, poolNext := 0 } ∧
    s.active = SlotTable.default ∧ s.shadow = SlotTable.default ∧
    (∀ p : Port,
      s.port p = { PortRec.reset with prst := (s.port p).prst, presented := (s.port p).presented }) ∧
    s.links = [] ∧ s.atomic = none ∧
    s.mem =
      { state := .ready, outstanding := [], owed := 0, quietOpen := false, maintGrant := false, windowGiven := false,
        maintReq := s.mem.maintReq, wedgedSinceMark := false } ∧
    s.notices = NoticeQueue.reset ∧ s.counters = GateCounters.reset ∧ s.settings = Settings.reset ∧
    s.mgmt = Mgmt.reset ∧ s.memBeat = none ∧ s.frameMarks = 0 ∧ s.nextId = 0

/-- MAINT_GRANT and what goes with it after a happening that leaves the gate as u: asserted if the conditions of R145
hold in u, and otherwise as in u. -/
abbrev WindowAfter (u t : State) : Prop :=
  let due :=
    u.mem.quietOpen && !u.mem.maintGrant && u.mem.maintReq && u.mem.outstanding.isEmpty && u.atomic.isNone &&
      !u.mem.windowGiven
  t =
    { u with
      mem := { u.mem with maintGrant := u.mem.maintGrant || due, windowGiven := u.mem.windowGiven || due }
      counters := { u.counters with maintWindows := u.counters.maintWindows + (if due then 1 else 0) } }

/-- The gate after a response of MEMORY_RESPONSE was matched to a beat that is no atomic read beat, but for what R145 adds
(R136, R137, R68, R128). `bad` says that it was MEMERR. -/
def matched (s : State) (b : BeatRecord) (rest : List BeatRecord) (bad : Bool) (element : Elem) : State :=
  let x := s.port b.port
  let first := bad && (x.queue.find? fun e => e.id == b.entry).any fun e => e.firstBad.isNone
  let waits := rest.any (fun c => c.entry == b.entry) || s.atomic.any fun a => a.entry == b.entry
  let brings := b.kind == .read || b.kind == .linkedRead
  let learns := fun e : Entry =>
    { e with
      firstBad := if first then some b.index else e.firstBad
      data :=
        if brings && !e.marked then e.data ++ [BitVec.ofNat 64 (element.toNat % 256 ^ 2 ^ e.req.size.toNat)]
        else e.data }
  let goes := fun l : Link => bad && b.kind == .linkedRead && l.holder == b.port && l.openedBy == b.serial
  let n := s.links.countP goes
  (({ s with
      mem := { s.mem with outstanding := rest }
      links := s.links.filter fun l => !goes l
      notices :=
        if first then s.notices.raise s.settings.noticeMask (.memFault b.port b.addr) s.sched.frameNumber
        else s.notices } : State).setPort b.port
    { x with
      queue :=
        x.queue.filterMap fun e =>
          if e.id ≠ b.entry then some e
          else if waits then some (learns e)
          else if e.marked then none
          else if e.state = .issued then
            some { learns e with state := .ready (if (learns e).firstBad.isSome then .memerr else .done) }
          else some (learns e)
      lastLoss := if n = 0 then x.lastLoss else some .faulted
      lossCount := x.lossCount + BitVec.ofNat 32 n })

/-- The gate after the read beat of an atomic update was answered MEMERR, but for what R145 adds (R111, R93). -/
def readFailed (s : State) (b : BeatRecord) (rest : List BeatRecord) : State :=
  let x := s.port b.port
  let first := (x.queue.find? fun e => e.id == b.entry).any fun e => e.firstBad.isNone
  let q :=
    x.queue.filterMap fun e =>
      if e.id ≠ b.entry then some e
      else if e.marked then none
      else some { e with state := .ready .memerr, firstBad := if first then some b.index else e.firstBad }
  let n := dropsOf b.port q s.links
  let y : PortRec :=
    { x with
      queue := settleDrops q
      lastLoss := if n = 0 then x.lastLoss else some .dropped
      lossCount := x.lossCount + BitVec.ofNat 32 n }
  ({ s with
      mem := { s.mem with outstanding := rest }
      atomic := none
      links := withDrops b.port q s.links
      notices :=
        if first then s.notices.raise s.settings.noticeMask (.memFault b.port b.addr) s.sched.frameNumber
        else s.notices } : State).setPort b.port
    { y with watching := y.watching && (issueHead y).isSome }

/-- What a wedge makes of an entry (R141, R123); none for an entry marked for discard that it fails, which is freed. -/
def wedgedEntry (e : Entry) : Option Entry :=
  if e.state = .issued ∨ e.state = .partly then
    if e.marked then none
    else
      some
        { e with
          state := .ready (if e.firstBad.isSome then .memerr else .timeout)
          data :=
            if e.req.kind = .read ∨ e.req.kind = .linkedRead then
              e.data ++ List.replicate ((if e.req.kind = .read then e.req.beats else 1) - e.data.length) 0
            else e.data }
  else some e

/-- Port p's record after a wedge (R140, R141, R73). -/
def wedgedPort (s : State) (p : Port) : PortRec :=
  let x := s.port p
  { x with
    queue := settleDrops (x.queue.filterMap wedgedEntry)
    watching := false
    lastLoss := if heldBy p s.links = 0 then x.lastLoss else some .purged
    lossCount := x.lossCount + BitVec.ofNat 32 (heldBy p s.links) }

/-- Three bytes for one place of READ_PORT's queue (R173). -/
def placeBytes : Option Entry → List Byte
  | none => [0, 0, 0]
  | some e =>
    [BitVec.ofNat 8
        ([Kind.read, .write, .linkedRead, .conditionalWrite, .swap, .boundedAdd, .linkDrop].idxOf e.req.kind + 1),
      BitVec.ofNat 8
        ((match e.state with
            | .waiting => 1
            | .partly => 2
            | .issued => 3
            | .ready _ => 4
            | .refusal _ => 5) +
          if e.marked then 128 else 0),
      BitVec.ofNat 8 (if e.state = .partly ∧ (e.req.kind = .read ∨ e.req.kind = .write) then e.nextBeat else 0)]

/-- The 45 data bytes of READ_PORT (R173). -/
def portBytes (x : PortRec) : List Byte :=
  [BitVec.ofNat 8 ([PortState.opened, .halting, .disabled, .resetting].idxOf x.state),
      BitVec.ofNat 8 x.enabled.toNat, BitVec.ofNat 8 x.prst.toNat, BitVec.ofNat 8 x.queue.length] ++
    placeBytes x.queue[0]? ++ placeBytes x.queue[1]? ++ placeBytes x.queue[2]? ++ placeBytes x.queue[3]? ++
      [BitVec.ofNat 8 x.waitCounter, BitVec.ofNat 8 x.starved.toNat] ++ fourBytes x.granted.toNat ++
        fourBytes x.slack.toNat ++ fourBytes x.condOk.toNat ++ fourBytes x.condFail.toNat ++
          fourBytes x.refused.toNat ++ twoBytes x.clampCount.toNat ++ fourBytes x.lossCount.toNat ++
            [BitVec.ofNat 8
              ([none, some .overwritten, some .selfWrite, some .width, some .replaced, some .evicted, some .aged,
                some .dropped, some .faulted, some LossCause.purged].idxOf x.lastLoss)]

/-- The 39 data bytes of READ_GATE (R174). -/
def gateData (s : State) : List Byte :=
  [BitVec.ofNat 8 ([SchedState.stopped, .running, .draining, .gap].idxOf s.sched.state),
      BitVec.ofNat 8 s.sched.slot.val, BitVec.ofNat 8 s.sched.budget] ++ twoBytes (s.sched.timer.getD 0) ++
    [if s.sched.syncInForce = .internal then 0 else 1, if s.sched.commit = .none then 0 else 1,
      BitVec.ofNat 8 s.sched.poolNext.val, if s.mem.state = .ready then 0 else 1, BitVec.ofNat 8 s.mem.owed,
      BitVec.ofNat 8 s.mem.outstanding.length, BitVec.ofNat 8 s.notices.records.length] ++
      twoBytes s.sched.frameNumber.toNat ++ fourBytes s.counters.poolSlack.toNat ++
        fourBytes s.counters.earlySync.toNat ++ fourBytes s.counters.missingSync.toNat ++
          fourBytes s.counters.overhangCount.toNat ++ fourBytes s.counters.maintWindows.toNat ++
            fourBytes s.counters.strayResponses.toNat ++ [s.notices.lost]

/-- Bytes 0 to 10 of a PEEK_NOTICE or TAKE_NOTICE response (R155). -/
def recordBytes : Option NoticeRecord → List Byte
  | none => [0, 0, 0, 0, 0, 0, 0, 0, 0, 0, 0]
  | some r =>
    let fields : Nat × Nat × Nat × Nat :=
      match r.notice with
      | .starved p => (1, p.val, 0, 0)
      | .memFault p a => (2, p.val, a.toNat, 0)
      | .wedged n => (3, 0, 0, n)
      | .syncEarly => (4, 0, 0, 0)
      | .syncMissing => (5, 0, 0, 0)
      | .tableSwapped => (6, 0, 0, 0)
      | .portReady p => (7, p.val, 0, 0)
    [1, BitVec.ofNat 8 fields.1, BitVec.ofNat 8 fields.2.1, BitVec.ofNat 8 r.repeats] ++ twoBytes r.frame.toNat ++
      fourBytes fields.2.2.1 ++ [BitVec.ofNat 8 fields.2.2.2]

/-- NOTICE_MASK masks the kind of a notice: the flag of its code is set (R151, R155). -/
def maskedBy (mask : Byte) (n : Notice) : Bool :=
  (mask.toNat / 2 ^
      (match n with
        | .starved _ => 1
        | .memFault _ _ => 2
        | .wedged _ => 3
        | .syncEarly => 4
        | .syncMissing => 5
        | .tableSwapped => 6
        | .portReady _ => 7)) % 2 = 1

/-- The NOTICE line for a queue under a mask (R151). -/
def lineOf (mask : Byte) (records : List NoticeRecord) : Bool := records.any fun r => !maskedBy mask r.notice

end Sys2Proof.Safety
end

