-- ==== Sys2Proof/WellFormed.lean ====
section
/-! DEFINITION. Which terms of Instr are commands a sender can give. -/

namespace Sys2Proof

/-- The bits are those of a frame that R163 classes BAD_FRAME. -/
def isBadFrame (bits : List Bool) : Bool :=
  match classifyFrame bits with
  | .badFrame _ => true
  | _ => false

/-- The bits are those of a frame that R163 classes BAD_COMMAND. -/
def isBadCommand (bits : List Bool) : Bool :=
  match classifyFrame bits with
  | .badCommand _ => true
  | _ => false

/-- A WRITE brings at most 31 data phases, the most its 5-bit beat count can call for (R115, R117); a fill frame has at
least one byte (R163); a BAD_FRAME or BAD_COMMAND carries a frame of that class; the row WRITE_SETTING names a number
over 9 (spec/opcode_table.json). -/
def Instr.wf : Instr → Bool
  | .write _ _ _ data => data.length ≤ 31
  | .fillFrame n => 1 ≤ n
  | .badFrame bits => isBadFrame bits
  | .badCommand bits => isBadCommand bits
  | .writeSetting n _ _ => 9 < n.toNat
  | _ => true

end Sys2Proof
end

