-- ==== Sys2Proof/Certificates/Slice0/Obligations.lean ====
section
/-! DEFINITION. The statements for the provers. Each docstring names the rules of spec/ it speaks of; OBLIGATIONS.json says
which of them it states whole. -/

section

open Sys2Proof Sys2Proof.Machine Sys2Proof.Safety

/-! ### The queue of commands, and what every command keeps -/

/-- Step takes the command at the front of the queue and is exec of it on the state with the queue's rest; with an empty
queue the block idles, which is the model's choice (log 2). -/
def Obligations.StepRunsTheFrontCommand : Prop :=
  ∀ (s : State) (c : Instr) (rest : List Instr),
    step { s with pending := c :: rest } = exec c { s with pending := rest } ∧
      step { s with pending := [] } = .next { s with pending := [] }

/-- No command touches the queue of commands (log 1). -/
def Obligations.ExecLeavesTheQueueAlone : Prop :=
  ∀ (c : Instr) (s t : State), exec c s = .next t → t.pending = s.pending

/-- Every well-formed command has a next state in every state (R168: each command is carried out in every scheduler,
port and memory port state), and the one refusal belongs to terms that are no command (log 19). -/
def Obligations.EveryWellFormedCommandCompletes : Prop :=
  ∀ (c : Instr) (s : State),
    (c.wf = true → ∃ t, exec c s = .next t) ∧ (∀ r, exec c s = .refused r → c.wf = false ∧ r = .notThisFrame)

/-- The state right after reset meets the invariants of every block. -/
def Obligations.ResetStateMeetsEveryInvariant : Prop :=
  FrameInv State.reset ∧ FrameCountInv State.reset ∧ PathInv State.reset ∧ LinkInv State.reset ∧
    PortsInv State.reset ∧ NoticeInv State.reset ∧ QueueInv State.reset

/-- Every step keeps the laws of the tables, the settings and the scheduler (R3, R5, R24, R26, R40, R46, R170). -/
def Obligations.FrameLawsKeptByEveryStep : Prop :=
  ∀ (s t : State), FrameInv s → step s = .next t → FrameInv t

/-- Every step keeps FRAME_NUMBER equal to the count of FRAME_MARK pulses modulo 65536 (R43). -/
def Obligations.FrameNumberCountsFrameMarks : Prop :=
  ∀ (s t : State), FrameCountInv s → step s = .next t → FrameCountInv t

/-- Every step keeps the laws of the memory path: the outstanding list within 16, owed, the atomic hold, the quiet window
and MAINT_GRANT (R24, R106, R133, R134, R138, R139, R145). -/
def Obligations.MemoryPathLawsKeptByEveryStep : Prop :=
  ∀ (s t : State), PathInv s → step s = .next t → PathInv t

/-- Every step keeps the laws of the link table (R58, R59, R73). -/
def Obligations.LinkTableLawsKeptByEveryStep : Prop :=
  ∀ (s t : State), LinkInv s → step s = .next t → LinkInv t

/-- Every step keeps the laws of the ports' queues and states (R119, R124 to R128, R130). -/
def Obligations.PortLawsKeptByEveryStep : Prop :=
  ∀ (s t : State), PortsInv s → step s = .next t → PortsInv t

/-- Every step keeps the laws of the notice queue and its line (R147 to R151). -/
def Obligations.NoticeLawsKeptByEveryStep : Prop :=
  ∀ (s t : State), NoticeInv s → step s = .next t → NoticeInv t

/-- Every step keeps what ties the outstanding list and the atomic record to the queues, in states that keep the laws of the
memory path: identities are distinct and below `nextId` (the model's own, log 11); each beat names a PARTIAL or ISSUED
entry of its port and an atomic read beat the entry of the atomic record; the atomic record names a PARTIAL SWAP or BOUNDED
ADD of its port; an ISSUED entry has a beat outstanding (R101, R105, R119, R133, R136). -/
def Obligations.QueueLawsKeptByEveryStep : Prop :=
  ∀ (s t : State), PathInv s → QueueInv s → step s = .next t → QueueInv t

/-- The active table changes only at a pin reset and by a swap, which copies the shadow whole, ends the commit and is made
at a frame start, on entering STOPPED or by COMMIT_TABLE while STOPPED; the shadow changes only at a pin reset and by
WRITE_SLOT, SET_FRAME_LEN and COPY_ACTIVE with no commit pending (R5, R6, R8, R53). -/
def Obligations.TablesChangeOnlyAsTheirRulesSay : Prop :=
  ∀ (i : Instr) (s t : State), exec i s = .next t →
    (t.active = s.active ∨ (i = .resetNAsserted ∧ t.active = SlotTable.default) ∨
      (t.active = s.shadow ∧ t.shadow = s.shadow ∧ t.sched.commit = .none ∧
        ((s.sched.commit = .pending ∧ (t.frameMarks = s.frameMarks + 1 ∨ t.sched.state = .stopped)) ∨
          (s.sched.state = .stopped ∧ ∃ fill, i = .commitTable fill)))) ∧
    (t.shadow = s.shadow ∨ (i = .resetNAsserted ∧ t.shadow = SlotTable.default) ∨
      (s.sched.commit = .none ∧ Listening s ∧
        ((∃ index kind owner length donate fill, i = .writeSlot index kind owner length donate fill) ∨
          (∃ length fill, i = .setFrameLen length fill) ∨ ∃ fill, i = .copyActive fill)))

/-! ### Encodings -/

/-- A management command and the bits of its frame determine each other: the frame of a well-formed command reads back as
that command, and whatever bits are clocked in, they are the frame of the command they read as (R162, R163, R168). -/
def Obligations.ManagementFramesReadBack : Prop :=
  ∀ (i : Instr) (bits : List Bool), decodeFrame bits = i ↔ i.wf = true ∧ encodeFrame i = some bits

/-- The phases of a well-formed request read back as that request; the kind is the first case of R117 that matches; a
request phase reads as a request exactly with the number of write-data phases its kind and beat count call for; and what it
then reads as has that kind, its data, and of the other fields those its kind uses: whatever the beat count of a kind but
READ and WRITE and the address and size of a LINK DROP are, they are ignored (R115, R117). -/
def Obligations.RequestPhasesReadBack : Prop :=
  ∀ (i : Instr) (p : Port) (r : RequestPhase) (data : List Elem),
    (i.wf = true → encodeRequest i = some (p, r, data) → decodeRequest p r data = some i) ∧
    (r.atomic = true → r.kind = if r.conditional then .boundedAdd else .swap) ∧
    (r.atomic = false → r.link = true → r.kind = if r.conditional then .linkDrop else .linkedRead) ∧
    (r.atomic = false → r.link = false → r.conditional = true → r.kind = .conditionalWrite) ∧
    (r.atomic = false → r.link = false → r.conditional = false → r.kind = if r.direction then .write else .read) ∧
    ((decodeRequest p r data).isSome = true ↔
      data.length =
        match r.kind with
        | .read => 0
        | .write => r.beats.toNat
        | .linkedRead => 0
        | .conditionalWrite => 1
        | .swap => 1
        | .boundedAdd => 2
        | .linkDrop => 0) ∧
    ∀ j ∈ decodeRequest p r data,
      requestOf j =
        some
          (p,
            { kind := r.kind
              addr := if r.kind = .linkDrop then 0 else r.addr
              size := if r.kind = .linkDrop then 0 else r.size
              beats := if r.kind = .read ∨ r.kind = .write then r.beats.toNat else 1
              data := data })

/-- The class of a management frame by the cases of R163 in their order: no bits; a number of bits that is no multiple of
8; a first byte 0x00; an unknown code; too few bytes; trailing bytes that are not fill; a command. The code carried is the
first byte, or 0 for a frame of 1 to 7 bits (R163, R168). -/
def Obligations.ManagementFramesAreClassified : Prop :=
  ∀ (bits : List Bool) (c : Byte) (rest : List Byte),
    classifyFrame [] = .empty ∧
    (bits.length % 8 ≠ 0 → classifyFrame bits = .badFrame (if bits.length < 8 then 0 else firstCode bits)) ∧
    firstCode (byteBits c ++ bits) = c ∧
    (c = 0 → (∀ x ∈ rest, x = 0) → classifyFrame (bitsOfBytes (c :: rest)) = .fill (rest.length + 1)) ∧
    (c = 0 → (∃ x ∈ rest, x ≠ 0) → classifyFrame (bitsOfBytes (c :: rest)) = .badFrame 0) ∧
    (c ≠ 0 → (∀ n ∈ commandTable, n.1 ≠ c) → classifyFrame (bitsOfBytes (c :: rest)) = .badCommand c) ∧
    ∀ n ∈ commandTable, n.1 = c →
      (rest.length + 1 < n.2 → classifyFrame (bitsOfBytes (c :: rest)) = .badFrame c) ∧
      (n.2 ≤ rest.length + 1 → (∃ x ∈ rest.drop (n.2 - 1), x ≠ 0) →
        classifyFrame (bitsOfBytes (c :: rest)) = .badFrame c) ∧
      (n.2 ≤ rest.length + 1 → (∀ x ∈ rest.drop (n.2 - 1), x = 0) →
        classifyFrame (bitsOfBytes (c :: rest)) =
          .command c (rest.take (n.2 - 1)) (rest.length + 1 - n.2))

/-! ### The framing of management commands -/

/-- EMPTY_FRAME, FILL_FRAME, BAD_FRAME and BAD_COMMAND change no state of the gate. EMPTY_FRAME clocks nothing out, and
FILL_FRAME clocks the buffer out; both keep the buffer and the sequence count. The other two replace the response with
their status, without data, and are counted (R163, R165). That the readout position after a frame is its number of bits is
the model's choice (log 9), and so is the record of the bits that MDO carried (log 12). -/
def Obligations.FramesThatExecuteNothing : Prop :=
  ∀ (s : State) (n : Nat) (bits : List Bool) (code : Byte), Listening s →
    exec .emptyFrame s = .next { s with mgmt := { s.mgmt with frame := .none, readout := 0, mdo := [] } } ∧
    exec (.fillFrame n) s =
      .next
        { s with
          mgmt :=
            { s.mgmt with
              frame := .none, readout := 8 * n, mdo := readoutBits s.mgmt.response (8 * n) } } ∧
    (classifyFrame bits = .badFrame code →
      exec (.badFrame bits) s = .next { s with mgmt := answered s code bits.length .badFrame [] }) ∧
    (classifyFrame bits = .badCommand code →
      exec (.badCommand bits) s = .next { s with mgmt := answered s code bits.length .badCommand [] })

/-- Every management frame clocks the buffer out as it stands; an empty frame and a fill frame keep the buffer and the
sequence count; any other frame replaces the buffer with a response whose sequence byte carries the count after its own
increment and the low four bits of the frame's code, and with at most 45 data bytes, none on a status BAD_ARGUMENT,
BAD_COMMAND, BAD_FRAME or PENDING (R164, R165, R166, R169). The readout position after a frame (log 9) and the record of
the bits that MDO carried (log 12) are the model's choice. -/
def Obligations.EveryFrameIsAnsweredInOrder : Prop :=
  ∀ (i : Instr) (bits : List Bool) (s t : State), Listening s → i.wf = true → encodeFrame i = some bits →
    exec i s = .next t →
      t.mgmt.frame = .none ∧ t.mgmt.readout = bits.length ∧
      t.mgmt.mdo = readoutBits s.mgmt.response bits.length ∧
      match classifyFrame bits with
      | .empty => t.mgmt.response = s.mgmt.response ∧ t.mgmt.seqCount = s.mgmt.seqCount
      | .fill _ => t.mgmt.response = s.mgmt.response ∧ t.mgmt.seqCount = s.mgmt.seqCount
      | .badFrame code => t.mgmt = answered s code bits.length .badFrame []
      | .badCommand code => t.mgmt = answered s code bits.length .badCommand []
      | .command code _ _ =>
        t.mgmt = answered s code bits.length t.mgmt.response.status t.mgmt.response.data ∧
          t.mgmt.response.data.length ≤ 45 ∧
          t.mgmt.response.status ≠ .badCommand ∧ t.mgmt.response.status ≠ .badFrame ∧
          (t.mgmt.response.status = .badArgument ∨ t.mgmt.response.status = .pending →
            t.mgmt.response.data = [])

/-- While RESET_N is asserted no management frame does anything, and the frame in progress at its release is discarded
without effect (R167). -/
def Obligations.FramesIgnoredInResetAndDiscardedAfterIt : Prop :=
  ∀ (i : Instr) (bits : List Bool) (s : State), i.wf = true → encodeFrame i = some bits →
    (s.resetAsserted = true → exec i s = .next s) ∧
    (s.resetAsserted = false → s.mgmt.frame = .discarding →
      exec i s = .next { s with mgmt := { s.mgmt with frame := .none } })

/-! ### Settings -/

/-- READ_SETTING returns the number and the stored value of a setting 0 to 9 and refuses any other number; nothing else
changes (R171). A WRITE_SETTING whose number is over 9 or whose value is out of range is refused with BAD_ARGUMENT and
changes nothing; in range the setting, and no other, takes the value, and the response carries both (R170, R172). -/
def Obligations.SettingsAreReadWrittenAndRangeChecked : Prop :=
  ∀ (s : State) (n : Byte) (v : Half) (fill : Nat), Listening s →
    (n.toNat ≤ 9 →
      exec (.readSetting n fill) s =
        .next
          { s with
            mgmt :=
              answered s 0x01 (8 * (2 + fill)) .accepted (n :: twoBytes ((storedValues s.settings).getD n.toNat 0)) }) ∧
    (9 < n.toNat →
      exec (.readSetting n fill) s = .next { s with mgmt := answered s 0x01 (8 * (2 + fill)) .badArgument [] }) ∧
    (¬SettingRange n.toNat v.toNat →
      exec (writeSettingCommand n v fill) s =
        .next { s with mgmt := answered s 0x02 (8 * (4 + fill)) .badArgument [] }) ∧
    (9 < n.toNat →
      exec (.writeSetting n v fill) s =
        .next { s with mgmt := answered s 0x02 (8 * (4 + fill)) .badArgument [] }) ∧
    (SettingRange n.toNat v.toNat →
      Completes (exec (writeSettingCommand n v fill) s) fun t =>
        storedValues t.settings = (storedValues s.settings).set n.toNat v.toNat ∧
          t.mgmt = answered s 0x02 (8 * (4 + fill)) .accepted (n :: twoBytes v.toNat))

/-- WRITE_SETTING of SYNC_WAIT, LINK_AGE_LIMIT, the MEM_SIZE code, MEM_TIMEOUT, WAIT_LIMIT and SPLIT_OK stores the value
and has no side effect at the write (R172). -/
def Obligations.PlainSettingsHaveNoSideEffect : Prop :=
  ∀ (s : State) (v : Half) (fill : Nat), Listening s →
    let reply := fun n : Byte => answered s 0x02 (8 * (4 + fill)) .accepted (n :: twoBytes v.toNat)
    (1 ≤ v.toNat →
      exec (.writeSyncWait v fill) s =
        .next { s with settings := { s.settings with syncWait := v.toNat }, mgmt := reply 1 }) ∧
    (v.toNat ≤ 255 →
      exec (.writeLinkAgeLimit v fill) s =
        .next { s with settings := { s.settings with linkAgeLimit := v.toNat }, mgmt := reply 3 }) ∧
    (v.toNat ≤ 12 →
      exec (.writeMemSize v fill) s =
        .next { s with settings := { s.settings with memSizeCode := v.toNat }, mgmt := reply 5 }) ∧
    (v.toNat ≤ 4095 →
      exec (.writeMemTimeout v fill) s =
        .next { s with settings := { s.settings with memTimeout := v.toNat }, mgmt := reply 6 }) ∧
    (v.toNat ≤ 255 →
      exec (.writeWaitLimit v fill) s =
        .next { s with settings := { s.settings with waitLimit := v.toNat }, mgmt := reply 7 }) ∧
    (v.toNat ≤ 255 →
      exec (.writeSplitOk v fill) s =
        .next { s with settings := { s.settings with splitOk := BitVec.ofNat 8 v.toNat }, mgmt := reply 8 })

/-- A write of SYNC_MODE stores the mode; in RUNNING and DRAINING that is all, in STOPPED the mode in force takes it at
once, in GAP a write of EXTERNAL does no more and a write of INTERNAL takes force and starts a frame (R46). -/
def Obligations.WriteSyncModeTakesForceByState : Prop :=
  ∀ (s : State) (v : Half) (fill : Nat), Listening s → v.toNat ≤ 1 →
    let m := if v.toNat = 0 then SyncMode.internal else SyncMode.external
    let u : State :=
      { s with
        settings := { s.settings with syncMode := m }
        mgmt := answered s 0x02 (8 * (4 + fill)) .accepted [0, 0, BitVec.ofNat 8 v.toNat] }
    (s.sched.state = .running ∨ s.sched.state = .draining → exec (.writeSyncMode v fill) s = .next u) ∧
    (s.sched.state = .stopped →
      exec (.writeSyncMode v fill) s = .next { u with sched := { u.sched with syncInForce := m } }) ∧
    (s.sched.state = .gap → v.toNat = 1 → exec (.writeSyncMode v fill) s = .next u) ∧
    (s.sched.state = .gap → v.toNat = 0 →
      Completes (exec (.writeSyncMode v fill) s) fun t =>
        FrameStarted { u with sched := { u.sched with syncInForce := .internal } } t)

/-- LINK_LIMIT lowered from 2 to 1 closes, of each port that holds two links, the older with REPLACED: a link closes exactly
if a later link of the open order has the same holder; raised or unchanged it closes nothing. A change of GRANULE closes every link with PURGED; GRANULE unchanged closes nothing. A write of
NOTICE_MASK recomputes the NOTICE line from the queue under the new mask, and records stay (R61, R62, R74, R151). -/
def Obligations.SettingsWithSideEffectsAtTheWrite : Prop :=
  ∀ (s : State) (v : Half) (fill : Nat), Listening s →
    let ul : State :=
      { s with
        settings := { s.settings with linkLimit := v.toNat }
        mgmt := answered s 0x02 (8 * (4 + fill)) .accepted (2 :: twoBytes v.toNat) }
    let ug : State :=
      { s with
        settings := { s.settings with granule := v.toNat }
        mgmt := answered s 0x02 (8 * (4 + fill)) .accepted (4 :: twoBytes v.toNat) }
    (LinksDistinct s.links → v.toNat = 1 → s.settings.linkLimit = 2 →
      Completes (exec (.writeLinkLimit v fill) s) fun t =>
        Closed ul t (fun l => ((s.links.dropWhile (· != l)).drop 1).any fun x => x.holder == l.holder) .replaced) ∧
    (v.toNat = 2 ∨ v.toNat = 1 ∧ s.settings.linkLimit = 1 → s.settings.linkLimit = 1 ∨ s.settings.linkLimit = 2 →
      exec (.writeLinkLimit v fill) s = .next ul) ∧
    (v.toNat = 16 ∨ v.toNat = 32 ∨ v.toNat = 64 →
      (v.toNat ≠ s.settings.granule →
        Completes (exec (.writeGranule v fill) s) fun t => Closed ug t (fun _ => true) .purged) ∧
      (v.toNat = s.settings.granule → exec (.writeGranule v fill) s = .next ug)) ∧
    (v.toNat ≤ 255 → v.toNat % 2 = 0 →
      exec (.writeNoticeMask v fill) s =
        .next
          { s with
            settings := { s.settings with noticeMask := BitVec.ofNat 8 v.toNat }
            notices := { s.notices with line := lineOf (BitVec.ofNat 8 v.toNat) s.notices.records }
            mgmt := answered s 0x02 (8 * (4 + fill)) .accepted [9, 0, BitVec.ofNat 8 v.toNat] })

/-! ### Slot tables -/

/-- WRITE_SLOT with no commit pending: arguments in range replace the shadow record whole, with owner and donate kept for
OWNED and ignored for POOL and QUIET, and echo it; any argument of R10's table refuses the command, and the shadow is
left (R9, R10). -/
def Obligations.WriteSlotReplacesOneShadowRecord : Prop :=
  ∀ (s : State) (index kind owner length donate : Byte) (fill : Nat), Listening s → s.sched.commit = .none →
    let put := fun (r : SlotRecord) (o d : Byte) (t : State) =>
      (∀ j : Fin 32, t.shadow.slots.get j = if j.val = index.toNat then r else s.shadow.slots.get j) ∧
        t.shadow.frameLen = s.shadow.frameLen ∧
        t =
          { s with
            shadow := t.shadow
            mgmt :=
              answered s 0x10 (8 * (6 + fill)) .accepted
                [index, kind, o, length, d, BitVec.ofNat 8 s.shadow.frameLen] }
    let fair := index.toNat ≤ 31 ∧ 1 ≤ length.toNat ∧ length.toNat ≤ 64
    (fair → kind.toNat = 0 → ∀ p : Port, p.val = owner.toNat → donate.toNat ≤ 1 →
      Completes (exec (.writeSlot index kind owner length donate fill) s)
        (put (.owned p length.toNat (donate.toNat == 1)) owner donate)) ∧
    (fair → kind.toNat = 1 →
      Completes (exec (.writeSlot index kind owner length donate fill) s) (put (.pool length.toNat) 0 0)) ∧
    (fair → kind.toNat = 2 →
      Completes (exec (.writeSlot index kind owner length donate fill) s) (put (.quiet length.toNat) 0 0)) ∧
    (¬fair ∨ 2 < kind.toNat ∨ (kind.toNat = 0 ∧ (7 < owner.toNat ∨ 1 < donate.toNat)) →
      exec (.writeSlot index kind owner length donate fill) s =
        .next { s with mgmt := answered s 0x10 (8 * (6 + fill)) .badArgument [] })

/-- SET_FRAME_LEN with no commit pending sets the shadow's FRAME_LEN to 1 to 32, alters no record, and answers with the
new length and slot time; any other value is refused (R12). COPY_ACTIVE with no commit pending copies the active table
whole into the shadow, and answers with its FRAME_LEN and slot time (R13). While a commit is
pending these two and WRITE_SLOT are refused with BUSY whatever their arguments, and change nothing (R8). -/
def Obligations.ShadowEditsAndTheirRefusals : Prop :=
  ∀ (s : State) (index kind owner length donate : Byte) (fill : Nat), Listening s →
    let short : SlotTable := { s.shadow with frameLen := length.toNat }
    (s.sched.commit = .none → 1 ≤ length.toNat ∧ length.toNat ≤ 32 →
      exec (.setFrameLen length fill) s =
        .next
          { s with
            shadow := short
            mgmt := answered s 0x12 (8 * (2 + fill)) .accepted (length :: twoBytes (slotTimeOf short)) }) ∧
    (s.sched.commit = .none → length.toNat = 0 ∨ 32 < length.toNat →
      exec (.setFrameLen length fill) s =
        .next { s with mgmt := answered s 0x12 (8 * (2 + fill)) .badArgument [] }) ∧
    (s.sched.commit = .none →
      exec (.copyActive fill) s =
        .next
          { s with
            shadow := s.active
            mgmt :=
              answered s 0x15 (8 * (1 + fill)) .accepted
                (BitVec.ofNat 8 s.active.frameLen :: twoBytes (slotTimeOf s.active)) }) ∧
    (s.sched.commit = .pending →
      exec (.writeSlot index kind owner length donate fill) s =
          .next { s with mgmt := answered s 0x10 (8 * (6 + fill)) .busy [] } ∧
        exec (.setFrameLen length fill) s = .next { s with mgmt := answered s 0x12 (8 * (2 + fill)) .busy [] } ∧
        exec (.copyActive fill) s = .next { s with mgmt := answered s 0x15 (8 * (1 + fill)) .busy [] })

/-- READ_SLOT returns the record at an index of the chosen table with absent fields as zero, the table's FRAME_LEN and the
in-use indication; a selector over 1 or an index over 31 is refused; nothing else changes (R2, R14). -/
def Obligations.ReadSlotReturnsTheRecord : Prop :=
  ∀ (s : State) (table index : Byte) (fill : Nat) (j : Fin 32), Listening s →
    let t := if table.toNat = 0 then s.active else s.shadow
    let bytes : List Byte :=
      match t.slots.get j with
      | .owned o n d => [0, BitVec.ofNat 8 o.val, BitVec.ofNat 8 n, BitVec.ofNat 8 d.toNat]
      | .pool n => [1, 0, BitVec.ofNat 8 n, 0]
      | .quiet n => [2, 0, BitVec.ofNat 8 n, 0]
    (table.toNat ≤ 1 → index.toNat = j.val →
      exec (.readSlot table index fill) s =
        .next
          { s with
            mgmt :=
              answered s 0x11 (8 * (3 + fill)) .accepted
                (index :: bytes ++ [BitVec.ofNat 8 t.frameLen, if index.toNat < t.frameLen then 1 else 0]) }) ∧
    (1 < table.toNat ∨ 31 < index.toNat →
      exec (.readSlot table index fill) s =
        .next { s with mgmt := answered s 0x11 (8 * (3 + fill)) .badArgument [] })

/-- COMMIT_TABLE in NONE while STOPPED swaps at once, with TABLE_SWAPPED carrying FRAME_NUMBER as it stands; in NONE
otherwise it makes the commit PENDING; in PENDING it changes nothing (R53, R54). CANCEL_COMMIT makes the commit NONE and
changes nothing else (R55). -/
def Obligations.CommitAndCancel : Prop :=
  ∀ (s : State) (fill : Nat), Listening s →
    (s.sched.commit = .none → s.sched.state = .stopped →
      exec (.commitTable fill) s =
        .next
          { s with
            active := s.shadow
            notices := s.notices.raise s.settings.noticeMask .tableSwapped s.sched.frameNumber
            mgmt := answered s 0x13 (8 * (1 + fill)) .accepted [] }) ∧
    (s.sched.commit = .pending ∨ s.sched.state ≠ .stopped →
      exec (.commitTable fill) s =
        .next
          { s with
            sched := { s.sched with commit := .pending }
            mgmt := answered s 0x13 (8 * (1 + fill)) .pending [] }) ∧
    exec (.cancelCommit fill) s =
      .next
        { s with
          sched := { s.sched with commit := .none }
          mgmt := answered s 0x14 (8 * (1 + fill)) .accepted [] }

/-! ### Scheduler -/

/-- START in STOPPED takes a frame start under INTERNAL and enters GAP under EXTERNAL; in every other state it changes
nothing (R50). STOP in RUNNING enters DRAINING, in GAP enters STOPPED at once, and otherwise changes nothing (R51). -/
def Obligations.StartAndStop : Prop :=
  ∀ (s : State) (fill : Nat), Listening s →
    let us : State := { s with mgmt := answered s 0x20 (8 * (1 + fill)) .accepted [] }
    let ut : State := { s with mgmt := answered s 0x21 (8 * (1 + fill)) .accepted [] }
    (s.sched.state = .stopped → s.sched.syncInForce = .internal →
      Completes (exec (.start fill) s) fun t => FrameStarted us t) ∧
    (s.sched.state = .stopped → s.sched.syncInForce = .external →
      Completes (exec (.start fill) s) fun t => InGap us t .external) ∧
    (s.sched.state ≠ .stopped → exec (.start fill) s = .next us) ∧
    (s.sched.state = .running →
      exec (.stop fill) s = .next { ut with sched := { ut.sched with state := .draining } }) ∧
    (s.sched.state = .gap → Completes (exec (.stop fill) s) fun t => Stopped ut t) ∧
    (s.sched.state = .stopped ∨ s.sched.state = .draining → exec (.stop fill) s = .next ut)

/-- A SYNC_IN pulse in GAP starts a frame and is not counted; in RUNNING and DRAINING it raises SYNC_EARLY and EARLY_SYNC
and does no more; in STOPPED and while RESET_N is asserted it does nothing (R41, R47, R49). When the sync wait timer runs
out in GAP, SYNC_MISSING is raised with FRAME_NUMBER as it stands, MISSING_SYNC rises, and a frame starts (R48).
SYNC_WAIT_TIMER_EXPIRY ahead of the last beat time of a GAP is the other order in which that beat time's atomic write beat and
the frame mark reach the ports (R132): the frame is counted and marked, the beat time passes in GAP, and slot 0 starts; that
SYNC_WAIT_TIMER_EXPIRY stands for it is the model's choice (log 23). -/
def Obligations.SyncPulsesAndTheSyncTimer : Prop :=
  ∀ (s : State),
    let missed : State :=
      { s with
        counters := { s.counters with missingSync := s.counters.missingSync + 1 }
        notices := s.notices.raise s.settings.noticeMask .syncMissing s.sched.frameNumber }
    (s.resetAsserted = false → s.sched.state = .gap → Completes (exec .syncInPulse s) fun t => FrameStarted s t) ∧
    (s.resetAsserted = false → s.sched.state = .running ∨ s.sched.state = .draining →
      exec .syncInPulse s =
        .next
          { s with
            counters := { s.counters with earlySync := s.counters.earlySync + 1 }
            notices := s.notices.raise s.settings.noticeMask .syncEarly s.sched.frameNumber }) ∧
    (s.resetAsserted = true ∨ s.sched.state = .stopped → exec .syncInPulse s = .next s) ∧
    (s.resetAsserted = false → s.sched.state = .gap → s.sched.timer = some 0 →
      Completes (exec .syncWaitTimerExpiry s) fun t => FrameStarted missed t) ∧
    (beatCanPass s = true → s.sched.state = .gap → s.sched.timer = some 1 →
      Completes (exec .syncWaitTimerExpiry s) fun t =>
        ∃ m b : State, MarkTaken missed m ∧ exec .issueDecision m = .next b ∧
          SlotStarted (b.setSched { b.sched with state := .running, timer := none }) t 0)

/-- When a slot's budget is zero the slot ends: an atomic update in progress becomes overhanging and the quiet window
closes; in RUNNING below the last slot the next slot starts; at the last slot the mode in force takes the written one and
a frame starts or GAP is entered; in DRAINING the scheduler becomes STOPPED (R44, R45, R51, R108, R145). SLOT_END ahead of
a frame's last beat time is the other order in which that beat time's issue decision and the frame mark reach the links and
the ports (R71, R78, R96, R132): the frame is counted and marked, the beat time passes in the ending slot, and slot 0
starts; that SLOT_END stands for it is the model's choice (log 23). -/
def Obligations.SlotEndStartsWhatFollows : Prop :=
  ∀ (s : State), s.resetAsserted = false → s.sched.record.isSome = true →
    let u := slotClosed s
    let v : State := { u with sched := { u.sched with syncInForce := s.settings.syncMode } }
    let last := s.active.frameLen ≤ s.sched.slot.val + 1
    (s.sched.budget = 0 → s.sched.state = .running → s.sched.slot.val + 1 < s.active.frameLen →
      s.active.frameLen ≤ 32 → Completes (exec .slotEnd s) fun t => SlotStarted u t (s.sched.slot + 1)) ∧
    (s.sched.budget = 0 → s.sched.state = .running → last → s.settings.syncMode = .internal →
      Completes (exec .slotEnd s) fun t => FrameStarted v t) ∧
    (s.sched.budget = 0 → s.sched.state = .running → last → s.settings.syncMode = .external →
      Completes (exec .slotEnd s) fun t => InGap v t .external) ∧
    (s.sched.budget = 0 → s.sched.state = .draining → Completes (exec .slotEnd s) fun t => Stopped u t) ∧
    (s.sched.budget = 1 → beatCanPass s = true → s.sched.state = .running → last →
      s.settings.syncMode = .internal →
        Completes (exec .slotEnd s) fun t =>
          ∃ m b : State, MarkTaken s m ∧ exec .issueDecision m = .next b ∧
            SlotStarted
              ((slotClosed b).setSched
                { b.sched with state := .running, timer := none, syncInForce := .internal })
              t 0)

/-- The issue head is the oldest entry of a port that is not RESETTING which is not fully issued, unless it is a LINK DROP;
the ready test asks for OPEN or HALTING, a head, and the fit of that head against the full length (R17, R18, R19). -/
def Obligations.IssueHeadAndReadyTest : Prop :=
  ∀ (s : State) (p : Port) (e : Entry) (length : Nat),
    let x := s.port p
    (issueHead x = some e ↔
      x.state ≠ .resetting ∧ e.req.kind ≠ .linkDrop ∧ (e.state = .waiting ∨ e.state = .partly) ∧
        ∃ front back, x.queue = front ++ e :: back ∧ ∀ f ∈ front, f.state ≠ .waiting ∧ f.state ≠ .partly) ∧
    (issueHead x = none → portReady s length p = false) ∧
    (issueHead x = some e →
      (portReady s length p = true ↔
        (x.state = .opened ∨ x.state = .halting) ∧
          ((e.req.kind = .read ∨ e.req.kind = .write) →
            if s.settings.splitOk.getLsbD p.val = true then 1 ≤ length else e.req.beats - e.nextBeat ≤ length) ∧
          ((e.req.kind = .linkedRead ∨ e.req.kind = .conditionalWrite) → 1 ≤ length) ∧
          ((e.req.kind = .swap ∨ e.req.kind = .boundedAdd) → 2 ≤ length)))

/-! ### Beat times and issue -/

/-- One ISSUE_DECISION is one whole beat time, which is the model's choice (log 2): at most one beat issues, and it is the grantee's in a slot or the owed atomic write; none issues while
WEDGED or with 16 outstanding, and none but the owed write while an atomic update is in progress. GRANTED rises for the
port of the beat alone; the beat time without a beat of the grantee is slack, charged by the slot's record; budget,
deadlines and sync wait timer fall by one; the queue of a port that is neither the grantee nor the owner of the owed write
stays, and when nothing can issue nothing but budget, slack, deadlines and timer moves (R24 to R28, R31, R37, R40, R48,
R106, R134, R135, R139, R156). When in it deadlines, budget and timer fall is log 2 too. -/
def Obligations.OneBeatTime : Prop :=
  ∀ (s : State), beatCanPass s = true →
    Completes (exec .issueDecision s) fun t =>
      let new := newBeats s t
      let served := new.any fun b => s.sched.grantee == some b.port
      BeatFrame s t ∧ t.mem.outstanding = agedBeats s ++ new ∧ new.length ≤ 1 ∧ (new = [] ↔ t.memBeat = none) ∧
      (∀ b ∈ new,
        s.mem.state = .ready ∧ s.mem.outstanding.length ≤ 15 ∧ b.deadline = deadlineAtIssue s ∧
          if b.kind = .atomicWrite then
            s.atomic.any (fun a => a.port == b.port && a.entry == b.entry && a.phase != .reading) = true
          else s.atomic = none ∧ s.sched.record.isSome = true ∧ s.sched.grantee = some b.port) ∧
      (s.mem.state = .wedged ∨ 16 ≤ s.mem.outstanding.length → NoBeat s t) ∧
      (s.atomic.any (fun a => a.phase != .reading) = false →
        s.atomic ≠ none ∨ s.sched.record = none ∨ (s.sched.grantee.bind fun p => issueHead (s.port p)) = none →
          NoBeat s t) ∧
      (∀ p : Port,
        (t.port p).granted = (s.port p).granted + (if new.any (fun b => b.port == p) then 1 else 0) ∧
          (t.port p).slack =
            (s.port p).slack +
              (if !served && chargedPort s.sched.record == some p then 1 else 0) ∧
          (s.sched.grantee ≠ some p → s.atomic.any (fun a => a.port == p) = false → Unserved s t p)) ∧
      t.counters.poolSlack =
        s.counters.poolSlack +
          (if !served && chargedPool s.sched.record then 1 else 0) ∧
      t.sched.budget = (if s.sched.record.isSome then s.sched.budget - 1 else s.sched.budget) ∧
      t.sched.timer =
        if s.sched.record = none ∧ s.sched.state = .gap then s.sched.timer.map (· - 1) else s.sched.timer

/-- A READ or WRITE head of a port whose SPLIT_OK is set, or whose remaining beats are within the budget, places the beat
of its next-beat index; the entry becomes PARTIAL, or ISSUED with its last beat; a write beat closes every link on its
granule. Otherwise no beat issues and the head keeps its place (R29, R30, R69, R93). -/
def Obligations.BurstHeadPlacesItsNextBeat : Prop :=
  ∀ (s : State) (p : Port) (e : Entry), MayIssue s p e → e.req.kind = .read ∨ e.req.kind = .write →
    let bytes := 2 ^ e.req.size.toNat
    let a : Word := BitVec.ofNat 32 (e.req.addr.toNat + e.nextBeat * bytes)
    let element : Elem := BitVec.ofNat 64 ((e.req.data.getD e.nextBeat 0).toNat % 256 ^ bytes)
    let q :=
      changed e.id
        (fun x =>
          { x with
            nextBeat := x.nextBeat + 1
            state :=
              if x.nextBeat + 1 < (if x.req.kind = .read ∨ x.req.kind = .write then x.req.beats else 1) then .partly
              else .issued })
        (s.port p).queue
    if s.settings.splitOk.getLsbD p.val = true ∨ e.req.beats - e.nextBeat ≤ s.sched.budget then
      Completes (exec .issueDecision s) fun t =>
        BeatFrame s t ∧
        BeatIssued s t p e.id e.nextBeat (if e.req.kind = .read then .read else .write) a bytes
          (if e.req.kind = .read then none else some element) ∧
        (t.port p).queue = settleDrops q ∧ (t.port p).condOk = (s.port p).condOk ∧
        (t.port p).condFail = (s.port p).condFail ∧ (∀ r : Port, r ≠ p → Unserved s t r) ∧ t.atomic = none ∧
        t.counters.overhangCount = s.counters.overhangCount ∧
        (e.req.kind = .write → WriteActs s t p a q s.links) ∧
        (e.req.kind = .read →
          t.links = withDrops p q s.links ∧
            ∀ r : Port,
              LossIs (s.port r) (t.port r) .dropped 0 (if r = p then dropsOf p q s.links else 0))
    else Completes (exec .issueDecision s) fun t => BeatFrame s t ∧ NoBeat s t

/-- A LINKED READ head places its beat, becomes ISSUED, and refreshes its port's link on the granule of its address, or
opens one there, with replacement and then eviction, each loss recorded at the holder (R29, R65, R66, R67, R79, R93). -/
def Obligations.LinkedReadHeadOpensItsLink : Prop :=
  ∀ (s : State) (p : Port) (e : Entry), LinkInv s → MayIssue s p e → e.req.kind = .linkedRead →
    let bytes := 2 ^ e.req.size.toNat
    let q := changed e.id (fun x => { x with nextBeat := 1, state := .issued }) (s.port p).queue
    let L := linksAfterLinkedRead s p e.req.addr bytes
    let opens :=
      !(s.links.any fun l => l.holder == p && l.base == granuleBase s.settings.granule e.req.addr)
    let replaces := opens && s.settings.linkLimit ≤ heldBy p s.links
    let evicts := opens && !replaces && 12 ≤ s.links.length
    Completes (exec .issueDecision s) fun t =>
      BeatFrame s t ∧ BeatIssued s t p e.id 0 .linkedRead e.req.addr bytes none ∧
      (t.port p).queue = settleDrops q ∧ (t.port p).condOk = (s.port p).condOk ∧
      (t.port p).condFail = (s.port p).condFail ∧ (∀ r : Port, r ≠ p → Unserved s t r) ∧ t.atomic = none ∧
      t.counters.overhangCount = s.counters.overhangCount ∧ t.links = withDrops p q L ∧
      ∀ r : Port,
        LossIs (s.port r) (t.port r) (if replaces then .replaced else .evicted)
          (if (replaces && r = p) || (evicts && s.links.head?.any (fun l => l.holder == r)) then 1 else 0)
          (if r = p then dropsOf p q L else 0)

/-- The judgement of a CONDITIONAL WRITE head. Its port's link on the granule with its width: the link closes CONSUMED,
the write beat issues in the same happening, COND_OK rises. A link of another width: it closes WIDTH; no link: nothing
closes; in both the entry is READY_TO_ANSWER with FAILED, COND_FAIL rises, no beat time is used, and the rest of the beat
time goes on from there (R29, R84 to R88). -/
def Obligations.ConditionalWriteIsJudged : Prop :=
  ∀ (s : State) (p : Port) (e : Entry), MayIssue s p e → e.req.kind = .conditionalWrite →
    let bytes := 2 ^ e.req.size.toNat
    let mine := fun l : Link => l.holder == p && l.base == granuleBase s.settings.granule e.req.addr
    let q := changed e.id (fun x => { x with nextBeat := 1, state := .issued }) (s.port p).queue
    (s.links.find? mine = none → exec .issueDecision s = exec .issueDecision (afterFailure s p e .noLink)) ∧
    ∀ l ∈ s.links.find? mine,
      (l.width = bytes →
        Completes (exec .issueDecision s) fun t =>
          BeatFrame s t ∧
          BeatIssued s t p e.id 0 .conditionalWrite e.req.addr bytes
            (some (BitVec.ofNat 64 ((e.req.data.getD 0 0).toNat % 256 ^ bytes))) ∧
          (t.port p).queue = settleDrops q ∧ (t.port p).condOk = (s.port p).condOk + 1 ∧
          (t.port p).condFail = (s.port p).condFail ∧ (∀ r : Port, r ≠ p → Unserved s t r) ∧ t.atomic = none ∧
          t.counters.overhangCount = s.counters.overhangCount ∧
          WriteActs s t p e.req.addr q (s.links.filter fun l => !mine l)) ∧
      (l.width ≠ bytes → exec .issueDecision s = exec .issueDecision (afterFailure s p e .width))

/-- COND_OK rises only in a beat time of a slot granted to the port (SLOT_END holds one too, log 23), and only if a link of the port stood whose granule
contains the address, and whose width equals the size, of a CONDITIONAL WRITE waiting in its queue (R84, R86, R91). -/
def Obligations.ConditionalWriteSucceedsOnlyOnALink : Prop :=
  ∀ (i : Instr) (s t : State) (p : Port), exec i s = .next t → (t.port p).condOk ≠ (s.port p).condOk →
    i = .resetNAsserted ∨ (∃ fill, i = .clearState fill) ∨
      ((i = .issueDecision ∨ i = .atomicWriteBeat ∨ i = .slotEnd) ∧ s.sched.grantee = some p ∧ s.sched.record.isSome = true ∧
        (t.port p).condOk = (s.port p).condOk + 1 ∧
        ∃ e ∈ (s.port p).queue, ∃ l ∈ s.links,
          e.req.kind = .conditionalWrite ∧ (e.state = .waiting ∨ e.state = .partly) ∧ l.holder = p ∧
            l.base = granuleBase s.settings.granule e.req.addr ∧ l.width = 2 ^ e.req.size.toNat)

/-- A SWAP or BOUNDED ADD head places its read beat when the budget counts two beat times: the atomic record is filled with
its operand in READING and not overhanging, the entry becomes PARTIAL, and no link is touched; with a budget below two
nothing issues (R29, R64, R101, R105, R117). -/
def Obligations.AtomicHeadStartsItsUpdate : Prop :=
  ∀ (s : State) (p : Port) (e : Entry), MayIssue s p e → e.req.kind = .swap ∨ e.req.kind = .boundedAdd →
    let low := fun k => (BitVec.ofNat 32 (e.req.data.getD k 0).toNat : Word)
    if 2 ≤ s.sched.budget then
      Completes (exec .issueDecision s) fun t =>
        BeatFrame s t ∧ BeatIssued s t p e.id 0 .atomicRead e.req.addr 4 none ∧
        (t.port p).queue = changed e.id (fun x => { x with state := .partly }) (s.port p).queue ∧
        (t.port p).condOk = (s.port p).condOk ∧ (t.port p).condFail = (s.port p).condFail ∧
        (∀ r : Port, r ≠ p → Unserved s t r) ∧ t.counters.overhangCount = s.counters.overhangCount ∧
        t.links = s.links ∧
        (∀ r : Port, (t.port r).lastLoss = (s.port r).lastLoss ∧ (t.port r).lossCount = (s.port r).lossCount) ∧
        t.atomic =
          some
            { port := p, entry := e.id, addr := e.req.addr
              op := if e.req.kind = .swap then .swap (low 0) else .boundedAdd (low 0) (low 1)
              phase := .reading, overhanging := false }
    else Completes (exec .issueDecision s) fun t => BeatFrame s t ∧ NoBeat s t

/-- The write beat that the update engine owes issues in the next beat time, whatever the scheduler state: it carries the
new value, the record becomes empty, old value and clamped flag pass to the entry, which becomes ISSUED, an overhang is
counted, and the beat closes links as any write beat. ATOMIC_WRITE_BEAT and ISSUE_DECISION are this same beat time, in
budget, slack, timer and counters as in all else (R36, R69, R107, R108, R109; log 2). -/
def Obligations.OwedAtomicWriteIssues : Prop :=
  ∀ (s : State) (i : Instr) (a : AtomicRecord) (old new : Word) (clamped : Option Bool),
    beatCanPass s = true → i = .issueDecision ∨ i = .atomicWriteBeat → s.mem.state = .ready →
    s.mem.outstanding.length < 16 → s.atomic = some a → a.phase = .writeOwed old new clamped →
      let q :=
        changed a.entry (fun x => { x with state := .issued, oldValue := some old, clamped := clamped })
          (s.port a.port).queue
      exec .atomicWriteBeat s = exec .issueDecision s ∧
      Completes (exec i s) fun t =>
        BeatFrame s t ∧
        BeatIssued s t a.port a.entry 0 .atomicWrite a.addr 4 (some (BitVec.ofNat 64 new.toNat)) ∧
        (t.port a.port).queue = settleDrops q ∧ (t.port a.port).condOk = (s.port a.port).condOk ∧
        (t.port a.port).condFail = (s.port a.port).condFail ∧ (∀ r : Port, r ≠ a.port → Unserved s t r) ∧
        t.atomic = none ∧
        t.counters.overhangCount = s.counters.overhangCount + (if a.overhanging then 1 else 0) ∧
        WriteActs s t a.port a.addr q s.links

/-- After a beat time in which a write beat issued, no link stands on the granule of its address: not another holder's,
and not the writer's own (R69, R86, R100). The granule base of an address, which every statement on links uses, is the
address rounded down to a multiple of GRANULE: such a multiple, at most the address, and less than GRANULE below it (R58,
R65). -/
def Obligations.WriteBeatLeavesNoLinkOnItsGranule : Prop :=
  (∀ (s t : State) (b : MemBeat), beatCanPass s = true →
    exec .issueDecision s = .next t → t.memBeat = some b → b.write = true →
      ∀ l ∈ t.links, l.base ≠ granuleBase s.settings.granule b.addr) ∧
    ∀ (granule : Nat) (a : Word), granule = 16 ∨ granule = 32 ∨ granule = 64 →
      granule ∣ (granuleBase granule a).toNat ∧ (granuleBase granule a).toNat ≤ a.toNat ∧
        a.toNat - (granuleBase granule a).toNat < granule

/-! ### Responses of the memory controller, wedge and recovery -/

/-- A response with a beat outstanding is matched to the oldest, which leaves the list; for every beat but an atomic read
beat it stores the element of a read, keeps the first bad beat, raises MEM_FAULT at the first MEMERR of the request,
closes FAULTED the link that a failed LINKED READ beat opened or last refreshed, and completes the entry when no beat of
it is left: DONE or FAULT/MEMERR, or freed if marked for discard (R68, R128, R136, R137). That the first bad beat of an
entry marked for discard is kept too, so that MEM_FAULT is raised once for it, is the model's reading (log 16). -/
def Obligations.ResponseIsMatchedToTheOldestBeat : Prop :=
  ∀ (s : State) (status : MemStatus) (element : Elem) (b : BeatRecord) (rest : List BeatRecord),
    s.resetAsserted = false → s.mem.outstanding = b :: rest → b.kind ≠ .atomicRead →
      Completes (exec (.memoryResponse status element) s) fun t =>
        WindowAfter (matched s b rest (status == .memerr) element) t

/-- The response to the read beat of an atomic update. OK: the element is the old value, the record is in WRITE_OWED, the
new value is the operand for SWAP, and for BOUNDED ADD the exact sum of old value and signed delta, clamped to 0 and to
the ceiling in this order; a clamp sets the flag and moves CLAMP_COUNT, which saturates. MEMERR: the record is empty and no
write follows, the entry is READY_TO_ANSWER with FAULT/MEMERR or freed if marked for discard, MEM_FAULT is raised, and
LINK DROPs behind the entry take effect (R93, R102, R103, R104, R107, R111, R137). -/
def Obligations.AtomicReadIsAnswered : Prop :=
  ∀ (s : State) (element : Elem) (b : BeatRecord) (rest : List BeatRecord) (a : AtomicRecord),
    s.resetAsserted = false → s.mem.outstanding = b :: rest → b.kind = .atomicRead → s.atomic = some a →
      let old : Word := BitVec.ofNat 32 element.toNat
      let u := fun (new : Word) (clamped : Option Bool) (x : PortRec) =>
        (({ s with
            mem := { s.mem with outstanding := rest }
            atomic := some { a with phase := .writeOwed old new clamped } } : State).setPort a.port x)
      let x := s.port a.port
      let clamp : PortRec :=
        { x with clampCount := if x.clampCount.toNat = 65535 then x.clampCount else x.clampCount + 1 }
      (∀ v : Word, a.op = .swap v → exec (.memoryResponse .ok element) s = .next (u v none x)) ∧
      (∀ delta ceiling : Word, a.op = .boundedAdd delta ceiling →
        let sum : Int := old.toNat + delta.toInt
        (sum < 0 → exec (.memoryResponse .ok element) s = .next (u 0 (some true) clamp)) ∧
        (0 ≤ sum → (ceiling.toNat : Int) < sum →
          exec (.memoryResponse .ok element) s = .next (u ceiling (some true) clamp)) ∧
        (0 ≤ sum → sum ≤ ceiling.toNat →
          exec (.memoryResponse .ok element) s = .next (u (BitVec.ofNat 32 sum.toNat) (some false) x))) ∧
      Completes (exec (.memoryResponse .memerr element) s) fun t => WindowAfter (readFailed s b rest) t

/-- A response with nothing outstanding: owed above 0 falls by one; at 0 STRAY_RESPONSES rises; nothing else changes. While
RESET_N is asserted it is discarded and not counted (R133, R138). -/
def Obligations.UnmatchedResponsesAreOwedOrStray : Prop :=
  ∀ (s : State) (status : MemStatus) (element : Elem),
    (s.resetAsserted = true → exec (.memoryResponse status element) s = .next s) ∧
    (s.resetAsserted = false → s.mem.outstanding = [] → 0 < s.mem.owed →
      exec (.memoryResponse status element) s = .next { s with mem := { s.mem with owed := s.mem.owed - 1 } }) ∧
    (s.resetAsserted = false → s.mem.outstanding = [] → s.mem.owed = 0 →
      exec (.memoryResponse status element) s =
        .next { s with counters := { s.counters with strayResponses := s.counters.strayResponses + 1 } })

/-- The wedge: with an outstanding deadline passed, every outstanding beat fails, owed is their number, the port is WEDGED,
the atomic record is empty, every link is purged, WEDGED is raised with the number, every frame watch is cleared, ISSUED
and PARTIAL entries are answered FAULT or freed, and LINK DROPs behind them take effect (R73, R140, R141, R123). With a
deadline that passes in the beat time at hand the wedge may be taken ahead of that beat time's issue decision, which then
issues no beat; taken after it, the new beat is in the list and fails with the rest (R142). That WEDGE stands for the first
of these orders while a deadline is 1 is the model's choice (log 24). -/
def Obligations.WedgeFailsWhatIsOutstanding : Prop :=
  ∀ (s : State), s.resetAsserted = false → s.mem.state = .ready →
    s.mem.outstanding.any (fun b => b.deadline == some 0) = true ∨
        (beatCanPass s = true ∧ s.mem.outstanding.any (fun b => b.deadline == some 1) = true) →
      let n := s.mem.outstanding.length
      (beatCanPass s = true →
        Completes (exec .issueDecision s) fun u =>
          Completes (exec .wedge u) fun t => t.mem.state = .wedged ∧ t.mem.owed = n + (newBeats s u).length) ∧
      Completes (exec .wedge s) fun t =>
        (beatCanPass s = true → Completes (exec .issueDecision t) fun u => NoBeat t u) ∧
        (∀ p : Port, t.port p = wedgedPort s p) ∧
        WindowAfter
          { s with
            ports := t.ports
            links := []
            atomic := none
            mem := { s.mem with state := .wedged, outstanding := [], owed := n, wedgedSinceMark := true }
            notices := s.notices.raise s.settings.noticeMask (.wedged n) s.sched.frameNumber }
          t

/-- RECOVER makes a WEDGED memory port READY when nothing is owed and answers BUSY when something is; RECOVER_FORCE makes
it READY and sets owed to 0; in READY both change nothing; each reports the state and owed after it (R143, R144). -/
def Obligations.RecoverAndRecoverForce : Prop :=
  ∀ (s : State) (fill : Nat), Listening s →
    let owed := BitVec.ofNat 8 s.mem.owed
    (s.mem.state = .wedged → s.mem.owed = 0 →
      exec (.recover fill) s =
        .next
          { s with
            mem := { s.mem with state := .ready }
            mgmt := answered s 0x60 (8 * (1 + fill)) .accepted [0, 0] }) ∧
    (s.mem.state = .wedged → 0 < s.mem.owed →
      exec (.recover fill) s = .next { s with mgmt := answered s 0x60 (8 * (1 + fill)) .busy [1, owed] }) ∧
    (s.mem.state = .ready →
      exec (.recover fill) s = .next { s with mgmt := answered s 0x60 (8 * (1 + fill)) .accepted [0, owed] }) ∧
    (s.mem.state = .wedged →
      exec (.recoverForce fill) s =
        .next
          { s with
            mem := { s.mem with state := .ready, owed := 0 }
            mgmt := answered s 0x61 (8 * (1 + fill)) .accepted [0, 0] }) ∧
    (s.mem.state = .ready →
      exec (.recoverForce fill) s = .next { s with mgmt := answered s 0x61 (8 * (1 + fill)) .accepted [0, owed] })

/-- MAINT_REQ asserted is recorded, and MAINT_GRANT follows at once when the other conditions of R145 hold; withdrawn, a
grant already given stays; MAINT_GRANT is asserted when its conditions hold, once in a window, and MAINT_WINDOWS counts it
(R145, R146). -/
def Obligations.MaintenanceWindows : Prop :=
  ∀ (s : State),
    Completes (exec .maintReqAsserted s) (fun t => WindowAfter { s with mem := { s.mem with maintReq := true } } t) ∧
    exec .maintReqWithdrawn s = .next { s with mem := { s.mem with maintReq := false } } ∧
    Completes (exec .maintGrant s) fun t => WindowAfter s t

/-! ### Initiator ports -/

/-- A request is checked in the order SIZE, ALIGN, BEATS, RANGE, BOUNDARY, CLOSED, the first check that fails gives the
reason, sums are exact, and a LINK DROP is subject to CLOSED alone; MEM_SIZE is 64 KiB times 2 to the power of its code
(R118). -/
def Obligations.AcceptanceChecksInOrder : Prop :=
  ∀ (r : Request) (code : Nat) (closed : Bool),
    let bytes := 2 ^ r.size.toNat
    let burst := r.kind == .read || r.kind == .write
    let last := r.addr.toNat + bytes * (if burst then r.beats else 1) - 1
    let other := r.kind != .linkDrop
    let checks : List (Bool × RefuseReason) :=
      [(other && (4 ≤ r.size.toNat || ((r.kind == .swap || r.kind == .boundedAdd) && bytes != 4)), .size),
        (other && r.addr.toNat % bytes != 0, .align),
        (burst && (r.beats == 0 || 16 < r.beats), .beats),
        (other && 64 * 1024 * 2 ^ code ≤ last, .range),
        (burst && r.addr.toNat / 1024 != last / 1024, .boundary),
        (closed, .closed)]
    firstFailure r (memSize code) closed = (checks.find? fun c => c.1).map fun c => c.2

/-- A request of any kind presented at a port that has none withheld: OPEN with a free place, it is appended as WAITING or
as REFUSAL; HALTING with a free place, as REFUSAL; DISABLED, it is answered at once; RESETTING, with a full queue, or while
RESET_N is asserted, it is withheld. A withheld request is taken under the state the port is in when the reason for
withholding has ended, and not before (R115, R118, R120, R121, R124). The write data of a refused request is discarded
(R115). A request presented while one is withheld changes nothing, which is the model's own (log 14), and so is that
WITHHELD_REQUEST_TAKEN out of its conditions changes nothing (log 3). -/
def Obligations.RequestsAreTakenOrWithheld : Prop :=
  ∀ (i : Instr) (p : Port) (r : Request) (s : State), requestOf i = some (p, r) →
    let x := s.port p
    (x.presented = none → s.resetAsserted = false → x.state = .disabled →
      Completes (exec i s) fun t => Taken s t p r) ∧
    (x.presented = none → s.resetAsserted = false → x.state = .opened ∨ x.state = .halting → x.queue.length < 4 →
      Completes (exec i s) fun t => Taken s t p r) ∧
    (x.presented = none →
      s.resetAsserted = true ∨ x.state = .resetting ∨
        ((x.state = .opened ∨ x.state = .halting) ∧ 4 ≤ x.queue.length) →
      Completes (exec i s) fun t =>
        t.port p = { x with presented := some r } ∧ (∀ q : Port, q ≠ p → t.port q = s.port q) ∧
          t = { s with ports := t.ports }) ∧
    (x.presented ≠ none → exec i s = .next s) ∧
    (x.presented = some r → s.resetAsserted = false →
      x.state = .disabled ∨ ((x.state = .opened ∨ x.state = .halting) ∧ x.queue.length < 4) →
        Completes (exec (.withheldRequestTaken p) s) fun t => Taken (s.setPort p { x with presented := none }) t p r) ∧
    (x.presented = none ∨ s.resetAsserted = true ∨ x.state = .resetting ∨
        ((x.state = .opened ∨ x.state = .halting) ∧ 4 ≤ x.queue.length) →
      exec (.withheldRequestTaken p) s = .next s)

/-- A port delivers the response of its oldest entry once its outcome is known, which frees the entry; a port whose queue
empties closes its STARVED episode, and a HALTING port then becomes DISABLED with its links closed PURGED (R122, R125,
R131). -/
def Obligations.DeliveryFreesTheOldestEntry : Prop :=
  ∀ (p : Port) (s : State) (e : Entry) (rest : List Entry) (r : Response),
    s.resetAsserted = false → (s.port p).state ≠ .resetting → (s.port p).queue = e :: rest → e.response = some r →
      let x := s.port p
      let ends := rest.isEmpty && x.state == .halting
      let n := if ends then heldBy p s.links else 0
      Completes (exec (.responseDelivery p) s) fun t =>
        t.port p =
            { x with
              queue := rest
              lastResponse := some r
              starved := x.starved && !rest.isEmpty
              state := if ends then .disabled else x.state
              lastLoss := if n = 0 then x.lastLoss else some .purged
              lossCount := x.lossCount + BitVec.ofNat 32 n } ∧
          (∀ q : Port, q ≠ p → t.port q = s.port q) ∧
          t =
            { s with
              ports := t.ports
              links := if ends then s.links.filter fun l => !(l.holder == p) else s.links }

/-- The response record of an entry: none while its outcome is not known; a refusal carries its reason alone; otherwise
the status, the read data of READ and LINKED READ, the first bad beat of a burst's FAULT/MEMERR, the old value of a DONE
atomic update and the clamped flag of a DONE BOUNDED ADD; and its phases and codes are those of R117 (R116, R117). The
read data a port has sent of the response in progress (R123; a view of its queue, log 13) is the data its oldest entry
holds, for a READ or LINKED READ that is not marked for discard, and nothing otherwise; it is all of the response's data
once the outcome is known; and what has been sent stays sent: while the entry stays the oldest, unmarked, a step only adds
to it, and a wedge fills it up with zeros. -/
def Obligations.ResponsesCarryTheirFields : Prop :=
  (∀ (x : PortRec) (e : Entry) (rest : List Entry) (v : Verdict) (r : Response),
    (x.queue = [] → streamed x = []) ∧
    (x.queue = e :: rest →
      streamed x =
        (if e.marked = false ∧ (e.req.kind = .read ∨ e.req.kind = .linkedRead) then e.data else []) ∧
      (e.marked = false → e.state = .ready v → e.response = some r → r.data = streamed x) ∧
      ∀ f ∈ wedgedEntry e,
        ∃ n, streamed { x with queue := f :: rest } = streamed x ++ List.replicate n 0)) ∧
  (∀ (c : Instr) (s t : State) (p : Port) (e f : Entry), QueueInv s → exec c s = .next t →
    (s.port p).queue.head? = some e → (t.port p).queue.head? = some f → f.id = e.id → f.marked = false →
      ∃ more, streamed (t.port p) = streamed (s.port p) ++ more) ∧
  ∀ (e : Entry) (v : Verdict) (why : RefuseReason),
    (e.state = .waiting ∨ e.state = .partly ∨ e.state = .issued → e.response = none) ∧
    (e.state = .refusal why →
      e.response = some (refusedWith why) ∧
        (refusedWith why).phases =
          ([],
            { status := 2,
              reason :=
                BitVec.ofNat 3 ([RefuseReason.size, .align, .beats, .range, .boundary, .closed].idxOf why + 1),
              firstBad := 0, clamped := 0 })) ∧
    (e.state = .ready v →
      ∃ r, e.response = some r ∧ r.status = .outcome v ∧
        r.data = (if e.req.kind = .read ∨ e.req.kind = .linkedRead then e.data else []) ∧
        r.firstBad = (if (e.req.kind = .read ∨ e.req.kind = .write) ∧ v = .memerr then e.firstBad else none) ∧
        r.oldValue = (if (e.req.kind = .swap ∨ e.req.kind = .boundedAdd) ∧ v = .done then e.oldValue else none) ∧
        r.clamped = (if e.req.kind = .boundedAdd ∧ v = .done then e.clamped else none) ∧
        r.phases.1 = r.data ++ (r.oldValue.map fun w => BitVec.ofNat 64 w.toNat).toList ∧
        (r.phases.2.status, r.phases.2.reason) =
          (match v with
            | .done => (0, 0)
            | .noLink => (1, 1)
            | .width => (1, 2)
            | .memerr => (3, 1)
            | .timeout => (3, 2)) ∧
        r.phases.2.firstBad = BitVec.ofNat 4 (r.firstBad.getD 0) ∧
        (r.phases.2.clamped = 1 ↔ r.clamped = some true))

/-- A LINK DROP is due when every older entry is fully issued; the entries that are due become READY_TO_ANSWER with DONE;
and when it takes effect every link of its port closes DROPPED, with no beat and no other port's links touched (R72,
R93). -/
def Obligations.LinkDropTakesEffect : Prop :=
  ∀ (p : Port) (s : State) (q : List Entry),
    let drop := fun e : Entry => e.req.kind == .linkDrop && e.state == .waiting
    let m := heldBy p s.links
    (dropDue q = true ↔
      ∃ front e back, q = front ++ e :: back ∧ drop e = true ∧
        ∀ f ∈ front, f.state ≠ .waiting ∧ f.state ≠ .partly) ∧
    (∃ front back, q = front ++ back ∧
      (∀ f ∈ front, drop f = true ∨ (f.state ≠ .waiting ∧ f.state ≠ .partly)) ∧
      (∀ b ∈ back.head?, drop b = false ∧ (b.state = .waiting ∨ b.state = .partly)) ∧
      settleDrops q = (front.map fun f => if drop f then { f with state := .ready .done } else f) ++ back) ∧
    (s.resetAsserted = false → dropDue (s.port p).queue = true →
      Completes (exec (.linkDropTakesEffect p) s) fun t =>
        t.port p =
            { s.port p with
              queue := settleDrops (s.port p).queue
              lastLoss := if m = 0 then (s.port p).lastLoss else some .dropped
              lossCount := (s.port p).lossCount + BitVec.ofNat 32 m } ∧
          (∀ r : Port, r ≠ p → t.port r = s.port r) ∧
          t = { s with ports := t.ports, links := s.links.filter fun l => !(l.holder == p) })

/-- A port reset starts at the assertion of PRST_n and by PORT_RESET: RESETTING, links purged, every entry without a beat
outstanding or an update in the engine gone and every other marked, wait counter 0, episode closed; taken in RESETTING it
changes nothing, while RESET_N is asserted the port ignores the line, and PORT_RESET refuses an argument over 7 (R73, R113,
R124, R127). That the release of the line only releases the line, and the reset ends in a happening of its own,
PORT_RESET_END, is the model's reading of R128 (log 5). -/
def Obligations.PortResetStarts : Prop :=
  ∀ (s : State) (p : Port) (b : Byte) (fill : Nat),
    let held : State := s.setPort p { s.port p with prst := true }
    let u : State :=
      { s with
        mgmt :=
          answered s 0x32 (8 * (2 + fill)) .accepted
            [BitVec.ofNat 8 p.val, 3, BitVec.ofNat 8 (s.port p).enabled.toNat] }
    (s.resetAsserted = false → (s.port p).state ≠ .resetting →
      Completes (exec (.prstNAsserted p) s) fun t => ResetStarted held t p) ∧
    (s.resetAsserted = true ∨ (s.port p).state = .resetting → exec (.prstNAsserted p) s = .next held) ∧
    exec (.prstNReleased p) s = .next (s.setPort p { s.port p with prst := false }) ∧
    (Listening s → b.toNat = p.val → (s.port p).state ≠ .resetting →
      Completes (exec (.portReset b fill) s) fun t => ResetStarted u t p) ∧
    (Listening s → b.toNat = p.val → (s.port p).state = .resetting → exec (.portReset b fill) s = .next u) ∧
    (Listening s → 7 < b.toNat →
      exec (.portReset b fill) s = .next { s with mgmt := answered s 0x32 (8 * (2 + fill)) .badArgument [] })

/-- A RESETTING port with no beat outstanding, no update in the engine and its line released leaves RESETTING with an empty
queue, OPEN or DISABLED by its enable setting, and raises PORT_READY (R128). That PORT_RESET_END commanded in any other
case leaves the state as it is, is the model's choice (log 3). -/
def Obligations.PortResetEnds : Prop :=
  ∀ (s : State) (p : Port),
    let drained :=
      s.resetAsserted = false ∧ (s.port p).state = .resetting ∧ (s.port p).prst = false ∧
        (∀ b ∈ s.mem.outstanding, b.port ≠ p) ∧ s.atomic.any (fun a => a.port == p) = false
    (drained →
      Completes (exec (.portResetEnd p) s) fun t =>
        t.port p = { s.port p with state := if (s.port p).enabled then .opened else .disabled, queue := [] } ∧
          (∀ q : Port, q ≠ p → t.port q = s.port q) ∧
          t =
            { s with
              ports := t.ports
              notices := s.notices.raise s.settings.noticeMask (.portReady p) s.sched.frameNumber }) ∧
    (¬drained → exec (.portResetEnd p) s = .next s)

/-- PORT_ENABLE sets ENABLED and makes a DISABLED or HALTING port OPEN, with its entries and links as they are.
PORT_DISABLE sets NOT ENABLED and makes an OPEN port HALTING, or DISABLED with its links closed PURGED when its queue is
empty. Both answer with the port's state, and refuse an argument over 7 (R125, R126). -/
def Obligations.PortEnableAndDisable : Prop :=
  ∀ (s : State) (p : Port) (b : Byte) (fill : Nat), Listening s →
    let x := s.port p
    let code := fun st : PortState => (BitVec.ofNat 8 ([PortState.opened, .halting, .disabled, .resetting].idxOf st) : Byte)
    let n := if x.state = .opened ∧ x.queue = [] then heldBy p s.links else 0
    let up : PortState := if x.state = .resetting then .resetting else .opened
    let down : PortState :=
      if x.state = .opened then (if x.queue = [] then .disabled else .halting) else x.state
    (b.toNat = p.val →
      exec (.portEnable b fill) s =
        .next
          (({ s with mgmt := answered s 0x30 (8 * (2 + fill)) .accepted [b, code up, 1] } : State).setPort p
            { x with enabled := true, state := up })) ∧
    (b.toNat = p.val →
      exec (.portDisable b fill) s =
        .next
          (({ s with
              links :=
                if x.state = .opened ∧ x.queue = [] then s.links.filter fun l => !(l.holder == p) else s.links
              mgmt := answered s 0x31 (8 * (2 + fill)) .accepted [b, code down, 0] } : State).setPort p
            { x with
              enabled := false, state := down, lastLoss := if n = 0 then x.lastLoss else some .purged,
              lossCount := x.lossCount + BitVec.ofNat 32 n })) ∧
    (7 < b.toNat →
      exec (.portEnable b fill) s = .next { s with mgmt := answered s 0x30 (8 * (2 + fill)) .badArgument [] } ∧
      exec (.portDisable b fill) s = .next { s with mgmt := answered s 0x31 (8 * (2 + fill)) .badArgument [] })

/-! ### Reading, notices, links, clearing -/

/-- READ_PORT returns the 45 bytes of R173 for a port 0 to 7 and refuses any other argument; READ_GATE returns the 39 bytes
of R174; neither changes anything else (R158, R159, R173, R174). -/
def Obligations.ReadPortAndReadGateReportTheState : Prop :=
  ∀ (s : State) (p : Port) (b : Byte) (fill : Nat), Listening s →
    (b.toNat = p.val →
      exec (.readPort b fill) s =
        .next { s with mgmt := answered s 0x33 (8 * (2 + fill)) .accepted (portBytes (s.port p)) }) ∧
    (7 < b.toNat →
      exec (.readPort b fill) s = .next { s with mgmt := answered s 0x33 (8 * (2 + fill)) .badArgument [] }) ∧
    exec (.readGate fill) s = .next { s with mgmt := answered s 0x71 (8 * (1 + fill)) .accepted (gateData s) }

/-- READ_LINK at a position 0 to 11 returns the link at that place of the open order, or the no-link indication, with the
number of valid links and GRANULE, and refuses any other position; nothing else changes (R77). PURGE_LINKS closes with
PURGED the links of one port, or every link for 0xFF, and answers with their number; any other argument is refused and
closes nothing (R73, R74, R76). -/
def Obligations.ReadLinkAndPurgeLinks : Prop :=
  ∀ (s : State) (p : Port) (b : Byte) (fill : Nat), Listening s →
    let u := fun n : Nat => { s with mgmt := answered s 0x41 (8 * (2 + fill)) .accepted [BitVec.ofNat 8 n] }
    let tail : List Byte := [BitVec.ofNat 8 s.links.length, BitVec.ofNat 8 s.settings.granule]
    (b.toNat ≤ 11 →
      exec (.readLink b fill) s =
        .next
          { s with
            mgmt :=
              answered s 0x40 (8 * (2 + fill)) .accepted
                ((match s.links[b.toNat]? with
                    | none => [0, 0, 0, 0, 0, 0, 0, 0]
                    | some l =>
                      [1, BitVec.ofNat 8 l.holder.val] ++ fourBytes l.base.toNat ++
                        [BitVec.ofNat 8 l.width, BitVec.ofNat 8 l.age]) ++ tail) }) ∧
    (11 < b.toNat →
      exec (.readLink b fill) s = .next { s with mgmt := answered s 0x40 (8 * (2 + fill)) .badArgument [] }) ∧
    (b.toNat = p.val →
      Completes (exec (.purgeLinks b fill) s) fun t =>
        Closed (u (heldBy p s.links)) t (fun l => l.holder == p) .purged) ∧
    (b.toNat = 255 →
      Completes (exec (.purgeLinks b fill) s) fun t => Closed (u s.links.length) t (fun _ => true) .purged) ∧
    (7 < b.toNat ∧ b.toNat < 255 →
      exec (.purgeLinks b fill) s = .next { s with mgmt := answered s 0x41 (8 * (2 + fill)) .badArgument [] })

/-- A raise merges into an identical record of a coalescing kind (the same kind and, for STARVED, the same port), raising
its repeat up to 255; or is appended with repeat 1 while fewer than 8 are held, the line then asserted exactly if an
unmasked record is queued; or is dropped and NOTICE_LOST rises up to 255 (R147 to R151). -/
def Obligations.RaisedNoticeMergesAppendsOrDrops : Prop :=
  ∀ (q : NoticeQueue) (mask : Byte) (n : Notice) (frame : Half),
    let merges :=
      (match n with
        | .starved _ => true
        | .syncEarly => true
        | .syncMissing => true
        | _ => false) && q.records.any fun r => r.notice == n
    let added := q.records ++ [{ notice := n, frame := frame, repeats := 1 }]
    q.raise mask n frame =
      if merges then
        { q with
          records := q.records.map fun r => if r.notice = n then { r with repeats := min 255 (r.repeats + 1) } else r }
      else if q.records.length < 8 then { q with records := added, line := lineOf mask added }
      else { q with lost := if q.lost.toNat = 255 then q.lost else q.lost + 1 }

/-- PEEK_NOTICE returns the oldest record and changes nothing; TAKE_NOTICE returns and removes it and recomputes the NOTICE
line; both lay the record, the number then held and NOTICE_LOST out as R155 says, and answer ACCEPTED on an empty queue
(R153, R154, R155). -/
def Obligations.PeekAndTakeNotice : Prop :=
  ∀ (s : State) (fill : Nat), Listening s →
    let q := s.notices
    exec (.peekNotice fill) s =
        .next
          { s with
            mgmt :=
              answered s 0x50 (8 * (1 + fill)) .accepted
                (recordBytes q.records.head? ++ [BitVec.ofNat 8 q.records.length, q.lost]) } ∧
    (q.records = [] →
      exec (.takeNotice fill) s =
        .next { s with mgmt := answered s 0x51 (8 * (1 + fill)) .accepted (recordBytes none ++ [0, q.lost]) }) ∧
    (∀ r ∈ q.records.head?,
      exec (.takeNotice fill) s =
        .next
          { s with
            notices := { q with records := q.records.tail, line := lineOf s.settings.noticeMask q.records.tail }
            mgmt :=
              answered s 0x51 (8 * (1 + fill)) .accepted
                (recordBytes (some r) ++ [BitVec.ofNat 8 (q.records.length - 1), q.lost]) })

/-- CLEAR_STATE sets every counter but FRAME_NUMBER to 0 and every LAST_LOSS to NONE, empties the notice queue, sets
NOTICE_LOST to 0 and withdraws the NOTICE line; everything else stands as it was (R160). -/
def Obligations.ClearStateClearsCountersAndNotices : Prop :=
  ∀ (s : State) (fill : Nat), Listening s →
    Completes (exec (.clearState fill) s) fun t =>
      (∀ p : Port,
        t.port p =
          { s.port p with
            granted := 0, slack := 0, condOk := 0, condFail := 0, refused := 0, clampCount := 0, lastLoss := none,
            lossCount := 0 }) ∧
      t =
        { s with
          ports := t.ports
          counters :=
            { poolSlack := 0, earlySync := 0, missingSync := 0, overhangCount := 0, maintWindows := 0,
              strayResponses := 0 }
          notices := { records := [], lost := 0, line := false }
          mgmt := answered s 0x70 (8 * (1 + fill)) .accepted [] }

/-! ### Pin reset -/

/-- The assertion of RESET_N puts every block at its reset values from every state, raises no notice and pulses no line
(R7, R39, R41, R60, R101, R124, R133, R148, R161, R170): no FRAME_MARK is counted and no beat is driven. That the levels
of the input pins, the withheld requests and `freeCount` are kept (logs 7 and 8) and that the recorded outputs and `nextId`
start again (logs 11 and 12) is the model's choice. -/
def Obligations.PinResetSetsEveryBlock : Prop :=
  ∀ (s : State),
    Completes (exec .resetNAsserted s) fun t =>
      t.resetAsserted = true ∧
      t.sched =
        { state := .running, slot := 0, budget := 0, record := none, grantee := none, frameNumber := 0,
          commit := .none, timer := none, syncInForce := .internal, poolNext := 0 } ∧
      (t.active.frameLen = 1 ∧ t.shadow = t.active ∧
        ∀ j : Fin 32, t.active.slots.get j = if j.val = 0 then .pool 16 else .quiet 1) ∧
      (∀ p : Port,
        t.port p =
          { state := .opened, enabled := true, prst := (s.port p).prst, presented := (s.port p).presented, queue := [],
            waitCounter := 0, watching := false, starved := false, granted := 0, slack := 0, condOk := 0, condFail := 0,
            refused := 0, clampCount := 0, lastLoss := none, lossCount := 0, lastResponse := none }) ∧
      t.links = [] ∧ t.atomic = none ∧
      t.mem =
        { state := .ready, outstanding := [], owed := 0, quietOpen := false, maintGrant := false, windowGiven := false,
          maintReq := s.mem.maintReq, wedgedSinceMark := false } ∧
      t.notices = { records := [], lost := 0, line := false } ∧
      t.counters =
        { poolSlack := 0, earlySync := 0, missingSync := 0, overhangCount := 0, maintWindows := 0,
          strayResponses := 0 } ∧
      storedValues t.settings = [0, 4096, 1, 0, 32, 12, 1024, 8, 255, 0] ∧
      t.mgmt = { frame := .none, response := ⟨.accepted, 0, []⟩, readout := 0, seqCount := 0, mdo := [] } ∧
      t.memBeat = none ∧ t.frameMarks = 0 ∧ t.nextId = 0 ∧
      t.pending = s.pending ∧ t.freeCount = s.freeCount

/-- The release of RESET_N takes the first frame start: FRAME_NUMBER 1, one FRAME_MARK pulse, slot 0 of the default table,
a POOL slot of 16 beat times without a ready port; a port whose PRST_n is asserted starts a port reset; with MSEL_n low the
management frame in progress is discarded (R7, R23, R41, R124, R167). It completes so in every state with RESET_N asserted
and the reset values held, which the assertion of RESET_N puts there (R7, R39, R41, R60, R101, R124, R133, R148, R161,
R170). -/
def Obligations.ReleaseOfResetStartsTheFirstFrame : Prop :=
  (∀ (s0 s : State), exec .resetNAsserted s0 = .next s → HeldInReset s) ∧
  ∀ (s : State) (mselLow : Bool), HeldInReset s →
    Completes (exec (.resetNReleased mselLow) s) fun t =>
      t.sched =
        { state := .running, slot := 0, budget := 16, record := some (.pool 16), grantee := none, frameNumber := 1,
          commit := .none, timer := none, syncInForce := .internal, poolNext := 0 } ∧
      (∀ p : Port,
        t.port p = { s.port p with state := if (s.port p).prst then .resetting else .opened }) ∧
      t =
        { s with
          resetAsserted := false
          sched := t.sched
          ports := t.ports
          frameMarks := 1
          mgmt := { s.mgmt with frame := if mselLow then .discarding else .none } }

/-- A happening that is not due changes nothing (the model's choice, log 3): RESET_N_RELEASED with the line not asserted,
SLOT_END, SYNC_WAIT_TIMER_EXPIRY and WEDGE with nothing run out (but ahead of the last beat time of a frame or of a GAP, log
23, and of a beat time in which a deadline passes, log 24), a beat time while RESET_N is asserted or such a happening
is due, ATOMIC_WRITE_BEAT with no write owed, a delivery with no outcome known, a LINK DROP that is not due. -/
def Obligations.HappeningsThatAreNotDueChangeNothing : Prop :=
  ∀ (s : State) (p : Port) (mselLow : Bool),
    (s.resetAsserted = false → exec (.resetNReleased mselLow) s = .next s) ∧
    (s.resetAsserted = true ∨ s.sched.record = none ∨
        (s.sched.budget ≠ 0 ∧
          (s.sched.budget ≠ 1 ∨ beatCanPass s = false ∨ s.sched.state ≠ .running ∨
            s.sched.slot.val + 1 < s.active.frameLen ∨ s.settings.syncMode = .external)) →
      exec .slotEnd s = .next s) ∧
    (s.resetAsserted = true ∨ s.sched.state ≠ .gap ∨
        (s.sched.timer ≠ some 0 ∧ (s.sched.timer ≠ some 1 ∨ beatCanPass s = false)) →
      exec .syncWaitTimerExpiry s = .next s) ∧
    (s.resetAsserted = true ∨ s.mem.state = .wedged ∨
        ((∀ b ∈ s.mem.outstanding, b.deadline ≠ some 0) ∧
          (beatCanPass s = false ∨ ∀ b ∈ s.mem.outstanding, b.deadline ≠ some 1)) →
      exec .wedge s = .next s) ∧
    (s.resetAsserted = true ∨ (s.sched.record.isSome = true ∧ s.sched.budget = 0) ∨
        (s.sched.state = .gap ∧ s.sched.timer = some 0) ∨
        (s.mem.state = .ready ∧ ∃ b ∈ s.mem.outstanding, b.deadline = some 0) →
      exec .issueDecision s = .next s ∧ exec .atomicWriteBeat s = .next s) ∧
    (s.atomic.any (fun a => a.phase != .reading) = false → exec .atomicWriteBeat s = .next s) ∧
    (s.resetAsserted = true ∨ (s.port p).state = .resetting ∨
        ((s.port p).queue.head?.bind Entry.response) = none →
      exec (.responseDelivery p) s = .next s) ∧
    (s.resetAsserted = true ∨ dropDue (s.port p).queue = false → exec (.linkDropTakesEffect p) s = .next s)

end
end

