-- ==== Sys2Proof/Laws/Encoding.lean ====
section
/-! SUPPORT. The byte and bit layouts as the statements write them: bytes of a number, bits of bytes, the readout and the
sequence byte (R162, R163, R166, R173, R174). -/

namespace Sys2Proof.Machine

open Sys2Proof.Safety

/-! ### Bytes of numbers -/

theorem be16_eq (v : Half) : be16 v = twoBytes v.toNat := by
  unfold be16 twoBytes
  congr 1
  apply BitVec.eq_of_toNat_eq
  simp [Nat.shiftRight_eq_div_pow]

theorem be32_eq (v : Word) : be32 v = fourBytes v.toNat := by
  have h := v.isLt
  unfold be32 fourBytes twoBytes
  simp only [List.cons_append, List.nil_append, List.cons.injEq, and_true]
  refine ⟨?_, ?_, ?_, ?_⟩ <;>
    (apply BitVec.eq_of_toNat_eq; simp [Nat.shiftRight_eq_div_pow]; try omega)

theorem be16N_eq (n : Nat) : be16N n = twoBytes n := by
  unfold be16N
  rw [be16_eq]
  unfold twoBytes
  congr 1
  · apply BitVec.eq_of_toNat_eq
    simp
    omega
  · congr 1
    apply BitVec.eq_of_toNat_eq
    simp

@[simp] theorem twoBytes_length (n : Nat) : (twoBytes n).length = 2 := rfl
@[simp] theorem fourBytes_length (n : Nat) : (fourBytes n).length = 4 := rfl
@[simp] theorem be16_length (v : Half) : (be16 v).length = 2 := rfl
@[simp] theorem be32_length (v : Word) : (be32 v).length = 4 := rfl
@[simp] theorem be16N_length (n : Nat) : (be16N n).length = 2 := rfl

/-- The two bytes of a 2-byte field are its upper and its lower byte, and make it up again (R162). -/
@[simp] theorem half_halfBytes (v : Half) : half (v.extractLsb' 8 8) (v.extractLsb' 0 8) = v := by
  unfold half
  apply BitVec.eq_of_getLsbD_eq
  intro i hi
  rw [BitVec.getLsbD_append]
  split
  · next h => simp [h]
  · next h =>
    have h8 : i - 8 < 8 := by omega
    have h9 : 8 + (i - 8) = i := by omega
    simp [h8, h9]

theorem halfBytes_half (hi lo : Byte) : halfBytes (half hi lo) = [hi, lo] := by
  unfold halfBytes half
  congr 1
  · apply BitVec.eq_of_getLsbD_eq
    intro i h
    rw [BitVec.getLsbD_extractLsb', BitVec.getLsbD_append]
    have h8 : ¬8 + i < 8 := by omega
    simp [h]
  · congr 1
    apply BitVec.eq_of_getLsbD_eq
    intro i h
    rw [BitVec.getLsbD_extractLsb', BitVec.getLsbD_append]
    simp [h]

/-! ### Bits of bytes -/

@[simp] theorem byteBits_length (b : Byte) : (byteBits b).length = 8 := rfl

@[simp] theorem bitsOfBytes_nil : bitsOfBytes [] = [] := rfl

@[simp] theorem bitsOfBytes_cons (b : Byte) (l : List Byte) : bitsOfBytes (b :: l) = byteBits b ++ bitsOfBytes l := by
  simp [bitsOfBytes]

@[simp] theorem bitsOfBytes_length (l : List Byte) : (bitsOfBytes l).length = 8 * l.length := by
  induction l with
  | nil => rfl
  | cons b rest ih =>
    rw [bitsOfBytes_cons, List.length_append, ih, byteBits_length, List.length_cons]
    omega

/-- A byte is made up of its bits. -/
theorem byteOfBits_byteBits (b : Byte) :
    byteOfBits (b.getLsbD 7) (b.getLsbD 6) (b.getLsbD 5) (b.getLsbD 4) (b.getLsbD 3) (b.getLsbD 2) (b.getLsbD 1)
      (b.getLsbD 0) = b := by
  revert b
  decide

/-- The bits of a byte that was made up of bits are those bits. -/
theorem byteBits_byteOfBits :
    ∀ a b c d e f g h : Bool, byteBits (byteOfBits a b c d e f g h) = [a, b, c, d, e, f, g, h] := by
  decide

/-- Bytes read back from their bits, and bits that follow fewer than eight are left out (R162). -/
theorem bytesOfBits_append (l : List Byte) (more : List Bool) :
    bytesOfBits (bitsOfBytes l ++ more) = l ++ bytesOfBits more := by
  induction l with
  | nil => rfl
  | cons b rest ih =>
    rw [bitsOfBytes_cons, List.append_assoc]
    unfold byteBits
    simp only [List.cons_append, List.nil_append, bytesOfBits]
    rw [byteOfBits_byteBits, ih]

@[simp] theorem bytesOfBits_bitsOfBytes (l : List Byte) : bytesOfBits (bitsOfBytes l) = l := by
  have h := bytesOfBits_append l []
  simpa [bytesOfBits] using h

/-- A run of whole bytes is the bits of its bytes. -/
theorem bitsOfBytes_bytesOfBits (bits : List Bool) (h : bits.length % 8 = 0) :
    bitsOfBytes (bytesOfBits bits) = bits := by
  fun_induction bytesOfBits bits with
  | case1 b7 b6 b5 b4 b3 b2 b1 b0 rest ih =>
    rw [bitsOfBytes_cons, byteBits_byteOfBits, ih (by simp only [List.length_cons] at h; omega)]
    rfl
  | case2 l hl =>
    match l, hl with
    | [], _ => rfl
    | [_], _ => simp at h
    | [_, _], _ => simp at h
    | [_, _, _], _ => simp at h
    | [_, _, _, _], _ => simp at h
    | [_, _, _, _, _], _ => simp at h
    | [_, _, _, _, _, _], _ => simp at h
    | [_, _, _, _, _, _, _], _ => simp at h
    | a :: b :: c :: d :: e :: f :: g :: i :: rest, hl => exact absurd rfl (hl a b c d e f g i rest)

/-! ### The readout and the sequence byte -/

theorem takePad_eq (l : List Bool) (n : Nat) :
    l.take n ++ List.replicate (n - l.length) false = (List.range n).map fun k => l.getD k false := by
  apply List.ext_getElem
  · simp
    omega
  · intro i h1 h2
    simp only [List.getElem_map, List.getElem_range, List.getElem_append, List.length_take, List.getElem_take,
      List.getElem_replicate]
    simp only [List.length_map, List.length_range] at h2
    split
    · next h =>
      have hl : i < l.length := by omega
      simp [List.getD_eq_getElem?_getD, hl]
    · next h =>
      have hl : l.length ≤ i := by omega
      simp [List.getD_eq_getElem?_getD, hl]

/-- The bits MDO carries, as the statements write them (R162). -/
theorem clockedOut_eq (r : MgmtResponse) (n : Nat) : clockedOut r n = readoutBits r n := takePad_eq _ _

@[simp] theorem readoutBits_zero (r : MgmtResponse) : readoutBits r 0 = [] := rfl

@[simp] theorem readoutBits_length (r : MgmtResponse) (n : Nat) : (readoutBits r n).length = n := by
  simp [readoutBits]

/-- The sequence byte, as the statements write it (R166). -/
theorem sequenceByte_eq (s : State) (code : Byte) : sequenceByte (s.mgmt.seqCount + 1) code = sequenceOf s code := by
  unfold sequenceByte sequenceOf
  apply BitVec.eq_of_toNat_eq
  have h1 := (s.mgmt.seqCount + 1).isLt
  rw [BitVec.toNat_append]
  simp only [BitVec.extractLsb'_toNat, Nat.shiftRight_zero, BitVec.toNat_add, BitVec.toNat_ofNat]
  have h2 : code.toNat % 2 ^ 4 < 2 ^ 4 := Nat.mod_lt _ (by decide)
  rw [Nat.shiftLeft_eq, Nat.mul_comm, ← Nat.two_pow_add_eq_or_of_lt h2]
  change _ = _ % 256
  have h3 : BitVec.toNat (1 : BitVec 4) = 1 := rfl
  omega

/-! ### Commands and their frames -/

/-- The table of R168 as the decoder reads it. -/
theorem frameLength_eq : ∀ c : Byte, frameLength c = commandTable.lookup c := by
  decide

/-- The bytes of the frame of a management command are as many as R168 gives it, its code first. -/
theorem frameBytes_length {i : Instr} {bytes : List Byte} {fill : Nat} (h : frameBytes i = some (bytes, fill)) :
    ∃ code rest, bytes = code :: rest ∧ frameLength code = some bytes.length ∧ code ≠ 0 := by
  cases i <;> simp only [frameBytes, reduceCtorEq, Option.some.injEq, Prod.mk.injEq] at h <;> obtain ⟨rfl, rfl⟩ := h <;>
    exact ⟨_, _, rfl, rfl, by decide⟩

end Sys2Proof.Machine
end

