-- ==== Sys2Proof/Laws/State.lean ====
section
/-! SUPPORT. One lemma per field per update of the state, and the reading of a port after each. -/

namespace Sys2Proof.Machine

/-! ### setPending -/

section
variable (s : State) (x : List Instr)

@[simp] theorem setPending_pending : (s.setPending x).pending = x := rfl
@[simp] theorem setPending_resetAsserted : (s.setPending x).resetAsserted = s.resetAsserted := rfl
@[simp] theorem setPending_active : (s.setPending x).active = s.active := rfl
@[simp] theorem setPending_shadow : (s.setPending x).shadow = s.shadow := rfl
@[simp] theorem setPending_sched : (s.setPending x).sched = s.sched := rfl
@[simp] theorem setPending_ports : (s.setPending x).ports = s.ports := rfl
@[simp] theorem setPending_links : (s.setPending x).links = s.links := rfl
@[simp] theorem setPending_atomic : (s.setPending x).atomic = s.atomic := rfl
@[simp] theorem setPending_mem : (s.setPending x).mem = s.mem := rfl
@[simp] theorem setPending_memBeat : (s.setPending x).memBeat = s.memBeat := rfl
@[simp] theorem setPending_notices : (s.setPending x).notices = s.notices := rfl
@[simp] theorem setPending_counters : (s.setPending x).counters = s.counters := rfl
@[simp] theorem setPending_frameMarks : (s.setPending x).frameMarks = s.frameMarks := rfl
@[simp] theorem setPending_settings : (s.setPending x).settings = s.settings := rfl
@[simp] theorem setPending_mgmt : (s.setPending x).mgmt = s.mgmt := rfl
@[simp] theorem setPending_nextId : (s.setPending x).nextId = s.nextId := rfl
@[simp] theorem setPending_freeCount : (s.setPending x).freeCount = s.freeCount := rfl
@[simp] theorem setPending_port (p : Port) : (s.setPending x).port p = s.port p := rfl

end

/-! ### setSched -/

section
variable (s : State) (x : Scheduler)

@[simp] theorem setSched_pending : (s.setSched x).pending = s.pending := rfl
@[simp] theorem setSched_resetAsserted : (s.setSched x).resetAsserted = s.resetAsserted := rfl
@[simp] theorem setSched_active : (s.setSched x).active = s.active := rfl
@[simp] theorem setSched_shadow : (s.setSched x).shadow = s.shadow := rfl
@[simp] theorem setSched_sched : (s.setSched x).sched = x := rfl
@[simp] theorem setSched_ports : (s.setSched x).ports = s.ports := rfl
@[simp] theorem setSched_links : (s.setSched x).links = s.links := rfl
@[simp] theorem setSched_atomic : (s.setSched x).atomic = s.atomic := rfl
@[simp] theorem setSched_mem : (s.setSched x).mem = s.mem := rfl
@[simp] theorem setSched_memBeat : (s.setSched x).memBeat = s.memBeat := rfl
@[simp] theorem setSched_notices : (s.setSched x).notices = s.notices := rfl
@[simp] theorem setSched_counters : (s.setSched x).counters = s.counters := rfl
@[simp] theorem setSched_frameMarks : (s.setSched x).frameMarks = s.frameMarks := rfl
@[simp] theorem setSched_settings : (s.setSched x).settings = s.settings := rfl
@[simp] theorem setSched_mgmt : (s.setSched x).mgmt = s.mgmt := rfl
@[simp] theorem setSched_nextId : (s.setSched x).nextId = s.nextId := rfl
@[simp] theorem setSched_freeCount : (s.setSched x).freeCount = s.freeCount := rfl
@[simp] theorem setSched_port (p : Port) : (s.setSched x).port p = s.port p := rfl

end

/-! ### setLinks -/

section
variable (s : State) (x : List Link)

@[simp] theorem setLinks_pending : (s.setLinks x).pending = s.pending := rfl
@[simp] theorem setLinks_resetAsserted : (s.setLinks x).resetAsserted = s.resetAsserted := rfl
@[simp] theorem setLinks_active : (s.setLinks x).active = s.active := rfl
@[simp] theorem setLinks_shadow : (s.setLinks x).shadow = s.shadow := rfl
@[simp] theorem setLinks_sched : (s.setLinks x).sched = s.sched := rfl
@[simp] theorem setLinks_ports : (s.setLinks x).ports = s.ports := rfl
@[simp] theorem setLinks_links : (s.setLinks x).links = x := rfl
@[simp] theorem setLinks_atomic : (s.setLinks x).atomic = s.atomic := rfl
@[simp] theorem setLinks_mem : (s.setLinks x).mem = s.mem := rfl
@[simp] theorem setLinks_memBeat : (s.setLinks x).memBeat = s.memBeat := rfl
@[simp] theorem setLinks_notices : (s.setLinks x).notices = s.notices := rfl
@[simp] theorem setLinks_counters : (s.setLinks x).counters = s.counters := rfl
@[simp] theorem setLinks_frameMarks : (s.setLinks x).frameMarks = s.frameMarks := rfl
@[simp] theorem setLinks_settings : (s.setLinks x).settings = s.settings := rfl
@[simp] theorem setLinks_mgmt : (s.setLinks x).mgmt = s.mgmt := rfl
@[simp] theorem setLinks_nextId : (s.setLinks x).nextId = s.nextId := rfl
@[simp] theorem setLinks_freeCount : (s.setLinks x).freeCount = s.freeCount := rfl
@[simp] theorem setLinks_port (p : Port) : (s.setLinks x).port p = s.port p := rfl

end

/-! ### setAtomic -/

section
variable (s : State) (x : Option AtomicRecord)

@[simp] theorem setAtomic_pending : (s.setAtomic x).pending = s.pending := rfl
@[simp] theorem setAtomic_resetAsserted : (s.setAtomic x).resetAsserted = s.resetAsserted := rfl
@[simp] theorem setAtomic_active : (s.setAtomic x).active = s.active := rfl
@[simp] theorem setAtomic_shadow : (s.setAtomic x).shadow = s.shadow := rfl
@[simp] theorem setAtomic_sched : (s.setAtomic x).sched = s.sched := rfl
@[simp] theorem setAtomic_ports : (s.setAtomic x).ports = s.ports := rfl
@[simp] theorem setAtomic_links : (s.setAtomic x).links = s.links := rfl
@[simp] theorem setAtomic_atomic : (s.setAtomic x).atomic = x := rfl
@[simp] theorem setAtomic_mem : (s.setAtomic x).mem = s.mem := rfl
@[simp] theorem setAtomic_memBeat : (s.setAtomic x).memBeat = s.memBeat := rfl
@[simp] theorem setAtomic_notices : (s.setAtomic x).notices = s.notices := rfl
@[simp] theorem setAtomic_counters : (s.setAtomic x).counters = s.counters := rfl
@[simp] theorem setAtomic_frameMarks : (s.setAtomic x).frameMarks = s.frameMarks := rfl
@[simp] theorem setAtomic_settings : (s.setAtomic x).settings = s.settings := rfl
@[simp] theorem setAtomic_mgmt : (s.setAtomic x).mgmt = s.mgmt := rfl
@[simp] theorem setAtomic_nextId : (s.setAtomic x).nextId = s.nextId := rfl
@[simp] theorem setAtomic_freeCount : (s.setAtomic x).freeCount = s.freeCount := rfl
@[simp] theorem setAtomic_port (p : Port) : (s.setAtomic x).port p = s.port p := rfl

end

/-! ### setMem -/

section
variable (s : State) (x : MemPort)

@[simp] theorem setMem_pending : (s.setMem x).pending = s.pending := rfl
@[simp] theorem setMem_resetAsserted : (s.setMem x).resetAsserted = s.resetAsserted := rfl
@[simp] theorem setMem_active : (s.setMem x).active = s.active := rfl
@[simp] theorem setMem_shadow : (s.setMem x).shadow = s.shadow := rfl
@[simp] theorem setMem_sched : (s.setMem x).sched = s.sched := rfl
@[simp] theorem setMem_ports : (s.setMem x).ports = s.ports := rfl
@[simp] theorem setMem_links : (s.setMem x).links = s.links := rfl
@[simp] theorem setMem_atomic : (s.setMem x).atomic = s.atomic := rfl
@[simp] theorem setMem_mem : (s.setMem x).mem = x := rfl
@[simp] theorem setMem_memBeat : (s.setMem x).memBeat = s.memBeat := rfl
@[simp] theorem setMem_notices : (s.setMem x).notices = s.notices := rfl
@[simp] theorem setMem_counters : (s.setMem x).counters = s.counters := rfl
@[simp] theorem setMem_frameMarks : (s.setMem x).frameMarks = s.frameMarks := rfl
@[simp] theorem setMem_settings : (s.setMem x).settings = s.settings := rfl
@[simp] theorem setMem_mgmt : (s.setMem x).mgmt = s.mgmt := rfl
@[simp] theorem setMem_nextId : (s.setMem x).nextId = s.nextId := rfl
@[simp] theorem setMem_freeCount : (s.setMem x).freeCount = s.freeCount := rfl
@[simp] theorem setMem_port (p : Port) : (s.setMem x).port p = s.port p := rfl

end

/-! ### setMemBeat -/

section
variable (s : State) (x : Option MemBeat)

@[simp] theorem setMemBeat_pending : (s.setMemBeat x).pending = s.pending := rfl
@[simp] theorem setMemBeat_resetAsserted : (s.setMemBeat x).resetAsserted = s.resetAsserted := rfl
@[simp] theorem setMemBeat_active : (s.setMemBeat x).active = s.active := rfl
@[simp] theorem setMemBeat_shadow : (s.setMemBeat x).shadow = s.shadow := rfl
@[simp] theorem setMemBeat_sched : (s.setMemBeat x).sched = s.sched := rfl
@[simp] theorem setMemBeat_ports : (s.setMemBeat x).ports = s.ports := rfl
@[simp] theorem setMemBeat_links : (s.setMemBeat x).links = s.links := rfl
@[simp] theorem setMemBeat_atomic : (s.setMemBeat x).atomic = s.atomic := rfl
@[simp] theorem setMemBeat_mem : (s.setMemBeat x).mem = s.mem := rfl
@[simp] theorem setMemBeat_memBeat : (s.setMemBeat x).memBeat = x := rfl
@[simp] theorem setMemBeat_notices : (s.setMemBeat x).notices = s.notices := rfl
@[simp] theorem setMemBeat_counters : (s.setMemBeat x).counters = s.counters := rfl
@[simp] theorem setMemBeat_frameMarks : (s.setMemBeat x).frameMarks = s.frameMarks := rfl
@[simp] theorem setMemBeat_settings : (s.setMemBeat x).settings = s.settings := rfl
@[simp] theorem setMemBeat_mgmt : (s.setMemBeat x).mgmt = s.mgmt := rfl
@[simp] theorem setMemBeat_nextId : (s.setMemBeat x).nextId = s.nextId := rfl
@[simp] theorem setMemBeat_freeCount : (s.setMemBeat x).freeCount = s.freeCount := rfl
@[simp] theorem setMemBeat_port (p : Port) : (s.setMemBeat x).port p = s.port p := rfl

end

/-! ### setNotices -/

section
variable (s : State) (x : NoticeQueue)

@[simp] theorem setNotices_pending : (s.setNotices x).pending = s.pending := rfl
@[simp] theorem setNotices_resetAsserted : (s.setNotices x).resetAsserted = s.resetAsserted := rfl
@[simp] theorem setNotices_active : (s.setNotices x).active = s.active := rfl
@[simp] theorem setNotices_shadow : (s.setNotices x).shadow = s.shadow := rfl
@[simp] theorem setNotices_sched : (s.setNotices x).sched = s.sched := rfl
@[simp] theorem setNotices_ports : (s.setNotices x).ports = s.ports := rfl
@[simp] theorem setNotices_links : (s.setNotices x).links = s.links := rfl
@[simp] theorem setNotices_atomic : (s.setNotices x).atomic = s.atomic := rfl
@[simp] theorem setNotices_mem : (s.setNotices x).mem = s.mem := rfl
@[simp] theorem setNotices_memBeat : (s.setNotices x).memBeat = s.memBeat := rfl
@[simp] theorem setNotices_notices : (s.setNotices x).notices = x := rfl
@[simp] theorem setNotices_counters : (s.setNotices x).counters = s.counters := rfl
@[simp] theorem setNotices_frameMarks : (s.setNotices x).frameMarks = s.frameMarks := rfl
@[simp] theorem setNotices_settings : (s.setNotices x).settings = s.settings := rfl
@[simp] theorem setNotices_mgmt : (s.setNotices x).mgmt = s.mgmt := rfl
@[simp] theorem setNotices_nextId : (s.setNotices x).nextId = s.nextId := rfl
@[simp] theorem setNotices_freeCount : (s.setNotices x).freeCount = s.freeCount := rfl
@[simp] theorem setNotices_port (p : Port) : (s.setNotices x).port p = s.port p := rfl

end

/-! ### setCounters -/

section
variable (s : State) (x : GateCounters)

@[simp] theorem setCounters_pending : (s.setCounters x).pending = s.pending := rfl
@[simp] theorem setCounters_resetAsserted : (s.setCounters x).resetAsserted = s.resetAsserted := rfl
@[simp] theorem setCounters_active : (s.setCounters x).active = s.active := rfl
@[simp] theorem setCounters_shadow : (s.setCounters x).shadow = s.shadow := rfl
@[simp] theorem setCounters_sched : (s.setCounters x).sched = s.sched := rfl
@[simp] theorem setCounters_ports : (s.setCounters x).ports = s.ports := rfl
@[simp] theorem setCounters_links : (s.setCounters x).links = s.links := rfl
@[simp] theorem setCounters_atomic : (s.setCounters x).atomic = s.atomic := rfl
@[simp] theorem setCounters_mem : (s.setCounters x).mem = s.mem := rfl
@[simp] theorem setCounters_memBeat : (s.setCounters x).memBeat = s.memBeat := rfl
@[simp] theorem setCounters_notices : (s.setCounters x).notices = s.notices := rfl
@[simp] theorem setCounters_counters : (s.setCounters x).counters = x := rfl
@[simp] theorem setCounters_frameMarks : (s.setCounters x).frameMarks = s.frameMarks := rfl
@[simp] theorem setCounters_settings : (s.setCounters x).settings = s.settings := rfl
@[simp] theorem setCounters_mgmt : (s.setCounters x).mgmt = s.mgmt := rfl
@[simp] theorem setCounters_nextId : (s.setCounters x).nextId = s.nextId := rfl
@[simp] theorem setCounters_freeCount : (s.setCounters x).freeCount = s.freeCount := rfl
@[simp] theorem setCounters_port (p : Port) : (s.setCounters x).port p = s.port p := rfl

end

/-! ### setFrameMarks -/

section
variable (s : State) (x : Nat)

@[simp] theorem setFrameMarks_pending : (s.setFrameMarks x).pending = s.pending := rfl
@[simp] theorem setFrameMarks_resetAsserted : (s.setFrameMarks x).resetAsserted = s.resetAsserted := rfl
@[simp] theorem setFrameMarks_active : (s.setFrameMarks x).active = s.active := rfl
@[simp] theorem setFrameMarks_shadow : (s.setFrameMarks x).shadow = s.shadow := rfl
@[simp] theorem setFrameMarks_sched : (s.setFrameMarks x).sched = s.sched := rfl
@[simp] theorem setFrameMarks_ports : (s.setFrameMarks x).ports = s.ports := rfl
@[simp] theorem setFrameMarks_links : (s.setFrameMarks x).links = s.links := rfl
@[simp] theorem setFrameMarks_atomic : (s.setFrameMarks x).atomic = s.atomic := rfl
@[simp] theorem setFrameMarks_mem : (s.setFrameMarks x).mem = s.mem := rfl
@[simp] theorem setFrameMarks_memBeat : (s.setFrameMarks x).memBeat = s.memBeat := rfl
@[simp] theorem setFrameMarks_notices : (s.setFrameMarks x).notices = s.notices := rfl
@[simp] theorem setFrameMarks_counters : (s.setFrameMarks x).counters = s.counters := rfl
@[simp] theorem setFrameMarks_frameMarks : (s.setFrameMarks x).frameMarks = x := rfl
@[simp] theorem setFrameMarks_settings : (s.setFrameMarks x).settings = s.settings := rfl
@[simp] theorem setFrameMarks_mgmt : (s.setFrameMarks x).mgmt = s.mgmt := rfl
@[simp] theorem setFrameMarks_nextId : (s.setFrameMarks x).nextId = s.nextId := rfl
@[simp] theorem setFrameMarks_freeCount : (s.setFrameMarks x).freeCount = s.freeCount := rfl
@[simp] theorem setFrameMarks_port (p : Port) : (s.setFrameMarks x).port p = s.port p := rfl

end

/-! ### setSettings -/

section
variable (s : State) (x : Settings)

@[simp] theorem setSettings_pending : (s.setSettings x).pending = s.pending := rfl
@[simp] theorem setSettings_resetAsserted : (s.setSettings x).resetAsserted = s.resetAsserted := rfl
@[simp] theorem setSettings_active : (s.setSettings x).active = s.active := rfl
@[simp] theorem setSettings_shadow : (s.setSettings x).shadow = s.shadow := rfl
@[simp] theorem setSettings_sched : (s.setSettings x).sched = s.sched := rfl
@[simp] theorem setSettings_ports : (s.setSettings x).ports = s.ports := rfl
@[simp] theorem setSettings_links : (s.setSettings x).links = s.links := rfl
@[simp] theorem setSettings_atomic : (s.setSettings x).atomic = s.atomic := rfl
@[simp] theorem setSettings_mem : (s.setSettings x).mem = s.mem := rfl
@[simp] theorem setSettings_memBeat : (s.setSettings x).memBeat = s.memBeat := rfl
@[simp] theorem setSettings_notices : (s.setSettings x).notices = s.notices := rfl
@[simp] theorem setSettings_counters : (s.setSettings x).counters = s.counters := rfl
@[simp] theorem setSettings_frameMarks : (s.setSettings x).frameMarks = s.frameMarks := rfl
@[simp] theorem setSettings_settings : (s.setSettings x).settings = x := rfl
@[simp] theorem setSettings_mgmt : (s.setSettings x).mgmt = s.mgmt := rfl
@[simp] theorem setSettings_nextId : (s.setSettings x).nextId = s.nextId := rfl
@[simp] theorem setSettings_freeCount : (s.setSettings x).freeCount = s.freeCount := rfl
@[simp] theorem setSettings_port (p : Port) : (s.setSettings x).port p = s.port p := rfl

end

/-! ### setMgmt -/

section
variable (s : State) (x : Mgmt)

@[simp] theorem setMgmt_pending : (s.setMgmt x).pending = s.pending := rfl
@[simp] theorem setMgmt_resetAsserted : (s.setMgmt x).resetAsserted = s.resetAsserted := rfl
@[simp] theorem setMgmt_active : (s.setMgmt x).active = s.active := rfl
@[simp] theorem setMgmt_shadow : (s.setMgmt x).shadow = s.shadow := rfl
@[simp] theorem setMgmt_sched : (s.setMgmt x).sched = s.sched := rfl
@[simp] theorem setMgmt_ports : (s.setMgmt x).ports = s.ports := rfl
@[simp] theorem setMgmt_links : (s.setMgmt x).links = s.links := rfl
@[simp] theorem setMgmt_atomic : (s.setMgmt x).atomic = s.atomic := rfl
@[simp] theorem setMgmt_mem : (s.setMgmt x).mem = s.mem := rfl
@[simp] theorem setMgmt_memBeat : (s.setMgmt x).memBeat = s.memBeat := rfl
@[simp] theorem setMgmt_notices : (s.setMgmt x).notices = s.notices := rfl
@[simp] theorem setMgmt_counters : (s.setMgmt x).counters = s.counters := rfl
@[simp] theorem setMgmt_frameMarks : (s.setMgmt x).frameMarks = s.frameMarks := rfl
@[simp] theorem setMgmt_settings : (s.setMgmt x).settings = s.settings := rfl
@[simp] theorem setMgmt_mgmt : (s.setMgmt x).mgmt = x := rfl
@[simp] theorem setMgmt_nextId : (s.setMgmt x).nextId = s.nextId := rfl
@[simp] theorem setMgmt_freeCount : (s.setMgmt x).freeCount = s.freeCount := rfl
@[simp] theorem setMgmt_port (p : Port) : (s.setMgmt x).port p = s.port p := rfl

end

/-! ### setNextId -/

section
variable (s : State) (x : Nat)

@[simp] theorem setNextId_pending : (s.setNextId x).pending = s.pending := rfl
@[simp] theorem setNextId_resetAsserted : (s.setNextId x).resetAsserted = s.resetAsserted := rfl
@[simp] theorem setNextId_active : (s.setNextId x).active = s.active := rfl
@[simp] theorem setNextId_shadow : (s.setNextId x).shadow = s.shadow := rfl
@[simp] theorem setNextId_sched : (s.setNextId x).sched = s.sched := rfl
@[simp] theorem setNextId_ports : (s.setNextId x).ports = s.ports := rfl
@[simp] theorem setNextId_links : (s.setNextId x).links = s.links := rfl
@[simp] theorem setNextId_atomic : (s.setNextId x).atomic = s.atomic := rfl
@[simp] theorem setNextId_mem : (s.setNextId x).mem = s.mem := rfl
@[simp] theorem setNextId_memBeat : (s.setNextId x).memBeat = s.memBeat := rfl
@[simp] theorem setNextId_notices : (s.setNextId x).notices = s.notices := rfl
@[simp] theorem setNextId_counters : (s.setNextId x).counters = s.counters := rfl
@[simp] theorem setNextId_frameMarks : (s.setNextId x).frameMarks = s.frameMarks := rfl
@[simp] theorem setNextId_settings : (s.setNextId x).settings = s.settings := rfl
@[simp] theorem setNextId_mgmt : (s.setNextId x).mgmt = s.mgmt := rfl
@[simp] theorem setNextId_nextId : (s.setNextId x).nextId = x := rfl
@[simp] theorem setNextId_freeCount : (s.setNextId x).freeCount = s.freeCount := rfl
@[simp] theorem setNextId_port (p : Port) : (s.setNextId x).port p = s.port p := rfl

end

/-! ### setFreeCount -/

section
variable (s : State) (x : Nat)

@[simp] theorem setFreeCount_pending : (s.setFreeCount x).pending = s.pending := rfl
@[simp] theorem setFreeCount_resetAsserted : (s.setFreeCount x).resetAsserted = s.resetAsserted := rfl
@[simp] theorem setFreeCount_active : (s.setFreeCount x).active = s.active := rfl
@[simp] theorem setFreeCount_shadow : (s.setFreeCount x).shadow = s.shadow := rfl
@[simp] theorem setFreeCount_sched : (s.setFreeCount x).sched = s.sched := rfl
@[simp] theorem setFreeCount_ports : (s.setFreeCount x).ports = s.ports := rfl
@[simp] theorem setFreeCount_links : (s.setFreeCount x).links = s.links := rfl
@[simp] theorem setFreeCount_atomic : (s.setFreeCount x).atomic = s.atomic := rfl
@[simp] theorem setFreeCount_mem : (s.setFreeCount x).mem = s.mem := rfl
@[simp] theorem setFreeCount_memBeat : (s.setFreeCount x).memBeat = s.memBeat := rfl
@[simp] theorem setFreeCount_notices : (s.setFreeCount x).notices = s.notices := rfl
@[simp] theorem setFreeCount_counters : (s.setFreeCount x).counters = s.counters := rfl
@[simp] theorem setFreeCount_frameMarks : (s.setFreeCount x).frameMarks = s.frameMarks := rfl
@[simp] theorem setFreeCount_settings : (s.setFreeCount x).settings = s.settings := rfl
@[simp] theorem setFreeCount_mgmt : (s.setFreeCount x).mgmt = s.mgmt := rfl
@[simp] theorem setFreeCount_nextId : (s.setFreeCount x).nextId = s.nextId := rfl
@[simp] theorem setFreeCount_freeCount : (s.setFreeCount x).freeCount = x := rfl
@[simp] theorem setFreeCount_port (p : Port) : (s.setFreeCount x).port p = s.port p := rfl

end

/-! ### setTables -/

section
variable (s : State) (a b : SlotTable)

@[simp] theorem setTables_pending : (s.setTables a b).pending = s.pending := rfl
@[simp] theorem setTables_resetAsserted : (s.setTables a b).resetAsserted = s.resetAsserted := rfl
@[simp] theorem setTables_active : (s.setTables a b).active = a := rfl
@[simp] theorem setTables_shadow : (s.setTables a b).shadow = b := rfl
@[simp] theorem setTables_sched : (s.setTables a b).sched = s.sched := rfl
@[simp] theorem setTables_ports : (s.setTables a b).ports = s.ports := rfl
@[simp] theorem setTables_links : (s.setTables a b).links = s.links := rfl
@[simp] theorem setTables_atomic : (s.setTables a b).atomic = s.atomic := rfl
@[simp] theorem setTables_mem : (s.setTables a b).mem = s.mem := rfl
@[simp] theorem setTables_memBeat : (s.setTables a b).memBeat = s.memBeat := rfl
@[simp] theorem setTables_notices : (s.setTables a b).notices = s.notices := rfl
@[simp] theorem setTables_counters : (s.setTables a b).counters = s.counters := rfl
@[simp] theorem setTables_frameMarks : (s.setTables a b).frameMarks = s.frameMarks := rfl
@[simp] theorem setTables_settings : (s.setTables a b).settings = s.settings := rfl
@[simp] theorem setTables_mgmt : (s.setTables a b).mgmt = s.mgmt := rfl
@[simp] theorem setTables_nextId : (s.setTables a b).nextId = s.nextId := rfl
@[simp] theorem setTables_freeCount : (s.setTables a b).freeCount = s.freeCount := rfl
@[simp] theorem setTables_port (p : Port) : (s.setTables a b).port p = s.port p := rfl

end

/-! ### setPort -/

section
variable (s : State) (p : Port) (x : PortRec)

@[simp] theorem setPort_pending : (s.setPort p x).pending = s.pending := rfl
@[simp] theorem setPort_resetAsserted : (s.setPort p x).resetAsserted = s.resetAsserted := rfl
@[simp] theorem setPort_active : (s.setPort p x).active = s.active := rfl
@[simp] theorem setPort_shadow : (s.setPort p x).shadow = s.shadow := rfl
@[simp] theorem setPort_sched : (s.setPort p x).sched = s.sched := rfl
@[simp] theorem setPort_links : (s.setPort p x).links = s.links := rfl
@[simp] theorem setPort_atomic : (s.setPort p x).atomic = s.atomic := rfl
@[simp] theorem setPort_mem : (s.setPort p x).mem = s.mem := rfl
@[simp] theorem setPort_memBeat : (s.setPort p x).memBeat = s.memBeat := rfl
@[simp] theorem setPort_notices : (s.setPort p x).notices = s.notices := rfl
@[simp] theorem setPort_counters : (s.setPort p x).counters = s.counters := rfl
@[simp] theorem setPort_frameMarks : (s.setPort p x).frameMarks = s.frameMarks := rfl
@[simp] theorem setPort_settings : (s.setPort p x).settings = s.settings := rfl
@[simp] theorem setPort_mgmt : (s.setPort p x).mgmt = s.mgmt := rfl
@[simp] theorem setPort_nextId : (s.setPort p x).nextId = s.nextId := rfl
@[simp] theorem setPort_freeCount : (s.setPort p x).freeCount = s.freeCount := rfl

end

/-! ### modPort -/

section
variable (s : State) (p : Port) (f : PortRec → PortRec)

@[simp] theorem modPort_pending : (s.modPort p f).pending = s.pending := rfl
@[simp] theorem modPort_resetAsserted : (s.modPort p f).resetAsserted = s.resetAsserted := rfl
@[simp] theorem modPort_active : (s.modPort p f).active = s.active := rfl
@[simp] theorem modPort_shadow : (s.modPort p f).shadow = s.shadow := rfl
@[simp] theorem modPort_sched : (s.modPort p f).sched = s.sched := rfl
@[simp] theorem modPort_links : (s.modPort p f).links = s.links := rfl
@[simp] theorem modPort_atomic : (s.modPort p f).atomic = s.atomic := rfl
@[simp] theorem modPort_mem : (s.modPort p f).mem = s.mem := rfl
@[simp] theorem modPort_memBeat : (s.modPort p f).memBeat = s.memBeat := rfl
@[simp] theorem modPort_notices : (s.modPort p f).notices = s.notices := rfl
@[simp] theorem modPort_counters : (s.modPort p f).counters = s.counters := rfl
@[simp] theorem modPort_frameMarks : (s.modPort p f).frameMarks = s.frameMarks := rfl
@[simp] theorem modPort_settings : (s.modPort p f).settings = s.settings := rfl
@[simp] theorem modPort_mgmt : (s.modPort p f).mgmt = s.mgmt := rfl
@[simp] theorem modPort_nextId : (s.modPort p f).nextId = s.nextId := rfl
@[simp] theorem modPort_freeCount : (s.modPort p f).freeCount = s.freeCount := rfl

end

/-! ### mapPorts -/

section
variable (s : State) (g : Port → PortRec → PortRec)

@[simp] theorem mapPorts_pending : (s.mapPorts g).pending = s.pending := rfl
@[simp] theorem mapPorts_resetAsserted : (s.mapPorts g).resetAsserted = s.resetAsserted := rfl
@[simp] theorem mapPorts_active : (s.mapPorts g).active = s.active := rfl
@[simp] theorem mapPorts_shadow : (s.mapPorts g).shadow = s.shadow := rfl
@[simp] theorem mapPorts_sched : (s.mapPorts g).sched = s.sched := rfl
@[simp] theorem mapPorts_links : (s.mapPorts g).links = s.links := rfl
@[simp] theorem mapPorts_atomic : (s.mapPorts g).atomic = s.atomic := rfl
@[simp] theorem mapPorts_mem : (s.mapPorts g).mem = s.mem := rfl
@[simp] theorem mapPorts_memBeat : (s.mapPorts g).memBeat = s.memBeat := rfl
@[simp] theorem mapPorts_notices : (s.mapPorts g).notices = s.notices := rfl
@[simp] theorem mapPorts_counters : (s.mapPorts g).counters = s.counters := rfl
@[simp] theorem mapPorts_frameMarks : (s.mapPorts g).frameMarks = s.frameMarks := rfl
@[simp] theorem mapPorts_settings : (s.mapPorts g).settings = s.settings := rfl
@[simp] theorem mapPorts_mgmt : (s.mapPorts g).mgmt = s.mgmt := rfl
@[simp] theorem mapPorts_nextId : (s.mapPorts g).nextId = s.nextId := rfl
@[simp] theorem mapPorts_freeCount : (s.mapPorts g).freeCount = s.freeCount := rfl

end

/-! ### Equality of states -/

/-- States equal in every field are equal. -/
theorem state_eq {s t : State} (pending_eq : s.pending = t.pending)
    (resetAsserted_eq : s.resetAsserted = t.resetAsserted)
    (active_eq : s.active = t.active)
    (shadow_eq : s.shadow = t.shadow)
    (sched_eq : s.sched = t.sched)
    (ports_eq : s.ports = t.ports)
    (links_eq : s.links = t.links)
    (atomic_eq : s.atomic = t.atomic)
    (mem_eq : s.mem = t.mem)
    (memBeat_eq : s.memBeat = t.memBeat)
    (notices_eq : s.notices = t.notices)
    (counters_eq : s.counters = t.counters)
    (frameMarks_eq : s.frameMarks = t.frameMarks)
    (settings_eq : s.settings = t.settings)
    (mgmt_eq : s.mgmt = t.mgmt)
    (nextId_eq : s.nextId = t.nextId)
    (freeCount_eq : s.freeCount = t.freeCount) : s = t := by
  cases s
  cases t
  simp only at *
  subst_vars
  rfl

/-! ### Reading a port -/

/-- The port written reads as what was written. -/
@[simp] theorem port_setPort_self (s : State) (p : Port) (x : PortRec) : (s.setPort p x).port p = x := by
  change (s.ports.set p.val x p.isLt)[p.val] = x
  simp

/-- Every other port reads as before. -/
@[simp] theorem port_setPort_ne (s : State) {p q : Port} (x : PortRec) (h : q ≠ p) :
    (s.setPort p x).port q = s.port q := by
  have h' : p.val ≠ q.val := fun e => h (Fin.ext e.symm)
  change (s.ports.set p.val x p.isLt)[q.val] = s.ports[q.val]
  simp [h']

/-- A port read after a write of a port. -/
theorem port_setPort (s : State) (p q : Port) (x : PortRec) :
    (s.setPort p x).port q = if q = p then x else s.port q := by
  by_cases h : q = p
  · subst h; simp
  · simp [h]

/-- The changed port reads as f of what it was. -/
@[simp] theorem port_modPort_self (s : State) (p : Port) (f : PortRec → PortRec) :
    (s.modPort p f).port p = f (s.port p) := by simp [State.modPort]

/-- Every other port reads as before a change. -/
@[simp] theorem port_modPort_ne (s : State) {p q : Port} (f : PortRec → PortRec) (h : q ≠ p) :
    (s.modPort p f).port q = s.port q := by simp [State.modPort, h]

/-- A port read after a change of a port. -/
theorem port_modPort (s : State) (p q : Port) (f : PortRec → PortRec) :
    (s.modPort p f).port q = if q = p then f (s.port p) else s.port q := by simp [State.modPort, port_setPort]

/-- Every port reads as its own change of what it was. -/
@[simp] theorem port_mapPorts (s : State) (g : Port → PortRec → PortRec) (p : Port) :
    (s.mapPorts g).port p = g p (s.port p) := by fin_cases p <;> rfl

/-- Two vectors of ports that read alike at every port are equal. -/
theorem ports_ext {a b : Vector PortRec 8} (h : ∀ p : Port, a.get p = b.get p) : a = b := by
  apply Vector.ext
  intro i hi
  exact h ⟨i, hi⟩

/-- Two states with equal ports at every port and equal elsewhere are equal. -/
theorem state_ext_ports {s t : State} (h : ∀ p : Port, s.port p = t.port p) (e : t = { s with ports := t.ports }) :
    s = t := by
  rw [e, ← ports_ext h]

/-! ### A change of one port, written out -/

theorem setPort_eq (s : State) (p : Port) (x : PortRec) :
    s.setPort p x = { s with ports := s.ports.set p.val x p.isLt } := rfl

theorem modPort_eq (s : State) (p : Port) (f : PortRec → PortRec) : s.modPort p f = s.setPort p (f (s.port p)) := rfl

/-- A port set to what it holds changes nothing. -/
@[simp] theorem setPort_port (s : State) (p : Port) : s.setPort p (s.port p) = s := by
  apply state_ext_ports
  · intro q
    by_cases h : q = p
    · subst h; simp
    · simp [h]
  · rfl

/-- The later of two writes of one port stands. -/
@[simp] theorem setPort_setPort (s : State) (p : Port) (x y : PortRec) : (s.setPort p x).setPort p y = s.setPort p y := by
  apply state_ext_ports
  · intro q
    by_cases h : q = p
    · subst h; simp
    · simp [h]
  · rfl

/-- Every port reads as a port of reset at State.reset. -/
@[simp] theorem port_reset (p : Port) : State.reset.port p = PortRec.reset := by fin_cases p <;> rfl

end Sys2Proof.Machine
end

