-- ==== Sys2Proof/Laws/Links.lean ====
section
/-! SUPPORT. What the operations of the link table do (R58 to R74). -/

namespace Sys2Proof.Machine

open Sys2Proof.Safety

/-! ### Closing -/

section
variable (f : Link → Bool) (c : LossCause) (s : State)

@[simp] theorem closeWhere_pending : (closeWhere f c s).pending = s.pending := rfl
@[simp] theorem closeWhere_resetAsserted : (closeWhere f c s).resetAsserted = s.resetAsserted := rfl
@[simp] theorem closeWhere_active : (closeWhere f c s).active = s.active := rfl
@[simp] theorem closeWhere_shadow : (closeWhere f c s).shadow = s.shadow := rfl
@[simp] theorem closeWhere_sched : (closeWhere f c s).sched = s.sched := rfl
@[simp] theorem closeWhere_atomic : (closeWhere f c s).atomic = s.atomic := rfl
@[simp] theorem closeWhere_mem : (closeWhere f c s).mem = s.mem := rfl
@[simp] theorem closeWhere_memBeat : (closeWhere f c s).memBeat = s.memBeat := rfl
@[simp] theorem closeWhere_notices : (closeWhere f c s).notices = s.notices := rfl
@[simp] theorem closeWhere_counters : (closeWhere f c s).counters = s.counters := rfl
@[simp] theorem closeWhere_frameMarks : (closeWhere f c s).frameMarks = s.frameMarks := rfl
@[simp] theorem closeWhere_settings : (closeWhere f c s).settings = s.settings := rfl
@[simp] theorem closeWhere_mgmt : (closeWhere f c s).mgmt = s.mgmt := rfl
@[simp] theorem closeWhere_nextId : (closeWhere f c s).nextId = s.nextId := rfl
@[simp] theorem closeWhere_freeCount : (closeWhere f c s).freeCount = s.freeCount := rfl

end

@[simp] theorem closeWhere_links (f : Link → Bool) (c : LossCause) (s : State) :
    (closeWhere f c s).links = s.links.filter fun l => !f l := rfl

@[simp] theorem closeWhere_port (f : Link → Bool) (c : LossCause) (s : State) (p : Port) :
    (closeWhere f c s).port p = recordLoss c (linksOf s p f) (s.port p) := by
  simp [closeWhere, linksOf]

/-- A closing says all of R74: the links that go, the loss record of every port, and nothing else. -/
theorem closeWhere_closed (f : Link → Bool) (c : LossCause) (s : State) : Closed s (closeWhere f c s) f c := by
  refine ⟨rfl, fun p => ?_, rfl⟩
  simp [recordLoss]

/-- A loss record touches LAST_LOSS and LOSS_COUNT alone. -/
theorem recordLoss_eq (c : LossCause) (n : Nat) (x : PortRec) :
    recordLoss c n x =
      { x with lastLoss := if n = 0 then x.lastLoss else some c, lossCount := x.lossCount + BitVec.ofNat 32 n } := by
  unfold recordLoss
  split
  · next h => subst h; simp
  · rfl

@[simp] theorem recordLoss_zero (c : LossCause) (x : PortRec) : recordLoss c 0 x = x := rfl

@[simp] theorem recordLoss_state (c : LossCause) (n : Nat) (x : PortRec) : (recordLoss c n x).state = x.state := by
  rw [recordLoss_eq]
@[simp] theorem recordLoss_enabled (c : LossCause) (n : Nat) (x : PortRec) : (recordLoss c n x).enabled = x.enabled := by
  rw [recordLoss_eq]
@[simp] theorem recordLoss_prst (c : LossCause) (n : Nat) (x : PortRec) : (recordLoss c n x).prst = x.prst := by
  rw [recordLoss_eq]
@[simp] theorem recordLoss_presented (c : LossCause) (n : Nat) (x : PortRec) : (recordLoss c n x).presented = x.presented := by
  rw [recordLoss_eq]
@[simp] theorem recordLoss_queue (c : LossCause) (n : Nat) (x : PortRec) : (recordLoss c n x).queue = x.queue := by
  rw [recordLoss_eq]
@[simp] theorem recordLoss_waitCounter (c : LossCause) (n : Nat) (x : PortRec) : (recordLoss c n x).waitCounter = x.waitCounter := by
  rw [recordLoss_eq]
@[simp] theorem recordLoss_watching (c : LossCause) (n : Nat) (x : PortRec) : (recordLoss c n x).watching = x.watching := by
  rw [recordLoss_eq]
@[simp] theorem recordLoss_starved (c : LossCause) (n : Nat) (x : PortRec) : (recordLoss c n x).starved = x.starved := by
  rw [recordLoss_eq]
@[simp] theorem recordLoss_granted (c : LossCause) (n : Nat) (x : PortRec) : (recordLoss c n x).granted = x.granted := by
  rw [recordLoss_eq]
@[simp] theorem recordLoss_slack (c : LossCause) (n : Nat) (x : PortRec) : (recordLoss c n x).slack = x.slack := by
  rw [recordLoss_eq]
@[simp] theorem recordLoss_condOk (c : LossCause) (n : Nat) (x : PortRec) : (recordLoss c n x).condOk = x.condOk := by
  rw [recordLoss_eq]
@[simp] theorem recordLoss_condFail (c : LossCause) (n : Nat) (x : PortRec) : (recordLoss c n x).condFail = x.condFail := by
  rw [recordLoss_eq]
@[simp] theorem recordLoss_refused (c : LossCause) (n : Nat) (x : PortRec) : (recordLoss c n x).refused = x.refused := by
  rw [recordLoss_eq]
@[simp] theorem recordLoss_clampCount (c : LossCause) (n : Nat) (x : PortRec) : (recordLoss c n x).clampCount = x.clampCount := by
  rw [recordLoss_eq]
@[simp] theorem recordLoss_lastResponse (c : LossCause) (n : Nat) (x : PortRec) : (recordLoss c n x).lastResponse = x.lastResponse := by
  rw [recordLoss_eq]

/-- A port's issue head does not look at the loss record. -/
@[simp] theorem issueHead_recordLoss (c : LossCause) (n : Nat) (x : PortRec) :
    issueHead (recordLoss c n x) = issueHead x := by
  simp [issueHead]

/-- With every link selected a port loses as many links as it holds. -/
@[simp] theorem linksOf_all (s : State) (p : Port) : linksOf s p (fun _ => true) = heldBy p s.links := by
  simp [linksOf, heldBy]

/-- A closing of one port's links loses nothing at another port. -/
theorem linksOf_holder (s : State) (p q : Port) :
    linksOf s q (fun l => l.holder == p) = if q = p then heldBy p s.links else 0 := by
  unfold linksOf heldBy
  split
  · next h => subst h; simp
  · next h =>
    simp only [List.countP_eq_zero, Bool.and_eq_true, beq_iff_eq, not_and]
    intro l _ h1 h2
    exact h (h2.symm.trans h1)

/-- A purge of one port's links closes them PURGED and touches no other port's record (R73). -/
theorem purgePort_port (p q : Port) (s : State) :
    (purgePort p s).port q = recordLoss .purged (if q = p then heldBy p s.links else 0) (s.port q) := by
  simp [purgePort, linksOf_holder]

/-- A purge of every link leaves none (R73). -/
@[simp] theorem purgeAll_links (s : State) : (purgeAll s).links = [] := by simp [purgeAll]

theorem purgeAll_port (p : Port) (s : State) :
    (purgeAll s).port p = recordLoss .purged (heldBy p s.links) (s.port p) := by simp [purgeAll]

/-! ### Links after a filter -/

theorem heldBy_filter_ne (p : Port) (links : List Link) :
    heldBy p (links.filter fun l => !(l.holder == p)) = 0 := by
  simp [heldBy, List.countP_eq_zero]

/-- Closing one link named by itself takes out every equal record; in a table without equal records, exactly it. -/
theorem filter_ne_head {l : Link} {rest : List Link} (h : l ∉ rest) :
    (l :: rest).filter (fun x => !(x == l)) = rest := by
  simp only [List.filter_cons, beq_self_eq_true, Bool.not_true, Bool.false_eq_true, if_false]
  apply List.filter_eq_self.2
  intro x hx
  simp only [Bool.not_eq_eq_eq_not, Bool.not_true, beq_eq_false_iff_ne]
  rintro rfl
  exact h hx

/-- In a table of distinct links the removal of the first that f selects is the removal of its equals. -/
theorem eraseP_eq_filter {links : List Link} (hn : links.Nodup) {f : Link → Bool} {l : Link}
    (h : links.find? f = some l) : links.eraseP f = links.filter (fun x => !(x == l)) := by
  induction links with
  | nil => simp at h
  | cons a rest ih =>
    rw [List.nodup_cons] at hn
    by_cases ha : f a = true
    · rw [List.find?_cons_of_pos ha] at h
      cases h
      rw [List.eraseP_cons_of_pos ha, filter_ne_head hn.1]
    · rw [List.find?_cons_of_neg ha] at h
      rw [List.eraseP_cons_of_neg ha, ih hn.2 h]
      have hal : a ≠ l := by
        rintro rfl
        exact ha (List.find?_some h)
      simp [hal]

/-- Distinct by holder and base, the links are distinct. -/
theorem nodup_of_linksDistinct {links : List Link} (h : LinksDistinct links) : links.Nodup :=
  List.Pairwise.imp (fun hab e => hab (by subst e; exact ⟨rfl, rfl⟩)) h

/-! ### Opening -/

theorem replaceStep_none {p : Port} {s : State} (h : ¬s.settings.linkLimit ≤ heldBy p s.links) :
    replaceStep p s = s := by
  simp only [heldBy] at h
  simp [replaceStep, h]

/-- The replacement step closes at most one link, of its own port, and touches nothing but links and loss records. -/
theorem replaceStep_cases (p : Port) (s : State) :
    replaceStep p s = s ∨
      (s.settings.linkLimit ≤ heldBy p s.links ∧
        ∃ l, s.links.find? (fun l => l.holder == p) = some l ∧ l.holder = p ∧
          replaceStep p s = closeWhere (fun x => x == l) .replaced s) := by
  unfold replaceStep
  split
  · next h =>
    split
    · next l hl => exact .inr ⟨h, l, hl, by simpa using List.find?_some hl, rfl⟩
    · exact .inl rfl
  · exact .inl rfl

/-- The eviction step closes at most one link, the oldest of the table, and touches nothing but links and loss records. -/
theorem evictStep_cases (s : State) :
    evictStep s = s ∨
      (12 ≤ s.links.length ∧ ∃ l, s.links.head? = some l ∧ evictStep s = closeWhere (fun x => x == l) .evicted s) := by
  unfold evictStep
  split
  · next h =>
    split
    · next l hl => exact .inr ⟨h, l, hl, rfl⟩
    · exact .inl rfl
  · exact .inl rfl

/-- An opening touches nothing but links and loss records. -/
theorem openLink_frame (p : Port) (a : Word) (bytes serial : Nat) (s : State) :
    openLink p a bytes serial s =
      { s with links := (openLink p a bytes serial s).links, ports := (openLink p a bytes serial s).ports } := by
  have hr : replaceStep p s = { s with links := (replaceStep p s).links, ports := (replaceStep p s).ports } := by
    rcases replaceStep_cases p s with h | ⟨_, l, _, _, h⟩
    · rw [h]
    · rw [h]
      rfl
  have he : ∀ u : State, evictStep u = { u with links := (evictStep u).links, ports := (evictStep u).ports } := by
    intro u
    rcases evictStep_cases u with h | ⟨_, l, _, h⟩
    · rw [h]
    · rw [h]
      rfl
  unfold openLink
  dsimp only
  split
  · rfl
  · rw [he, hr]
    rfl

/-- The opened or refreshed link is the youngest (R65). -/
theorem openLink_youngest (p : Port) (a : Word) (bytes serial : Nat) (s : State) :
    ∃ front, (openLink p a bytes serial s).links =
      front ++ [{ holder := p, base := granuleBase s.settings.granule a, width := bytes, age := 0, openedBy := serial }] := by
  unfold openLink
  dsimp only
  split
  · exact ⟨_, rfl⟩
  · exact ⟨_, rfl⟩

/-! ### What a write beat closes -/

/-- A write beat of a port leaves no link on its granule (R69). -/
theorem closeOwn_closeOthers_links (q : Port) (a : Word) (s : State) :
    (closeOwn q a (closeOthers q a s)).links = withoutBase (granuleBase s.settings.granule a) s.links := by
  simp only [closeOwn, closeOthers, closeWhere_links, closeWhere_settings, withoutBase, List.filter_filter]
  apply List.filter_congr
  intro l _
  simp only [bne]
  cases l.holder == q <;> cases l.base == granuleBase s.settings.granule a <;> rfl

/-- A beat presented to the link monitor touches nothing but links and loss records. -/
theorem presentBeat_frame (p : Port) (kind : BeatKind) (a : Word) (bytes serial : Nat) (s : State) :
    presentBeat p kind a bytes serial s =
      { s with
        links := (presentBeat p kind a bytes serial s).links
        ports := (presentBeat p kind a bytes serial s).ports } := by
  cases kind <;> try rfl
  exact openLink_frame p a bytes serial s

/-- Read beats, and the read beat of an atomic update, close and open nothing (R64). -/
@[simp] theorem presentBeat_read (p : Port) (a : Word) (bytes serial : Nat) (s : State) :
    presentBeat p .read a bytes serial s = s := rfl

@[simp] theorem presentBeat_atomicRead (p : Port) (a : Word) (bytes serial : Nat) (s : State) :
    presentBeat p .atomicRead a bytes serial s = s := rfl

/-! ### Ageing -/

/-- Ageing (R71): the links that go, the loss records, and nothing else. -/
theorem ageLinks_links (s : State) : (ageLinks s).links = (agedLinks s).filter fun l => !tooOld s l := by
  unfold ageLinks
  dsimp only
  split
  · next h => simp [agedLinks, tooOld, h]
  · next h =>
    have hb : (s.settings.linkAgeLimit != 0) = true := by simpa using h
    simp [agedLinks, tooOld, hb]

theorem ageLinks_port (s : State) (p : Port) :
    (ageLinks s).port p = recordLoss .aged ((agedLinks s).countP fun l => tooOld s l && l.holder == p) (s.port p) := by
  unfold ageLinks
  dsimp only
  split
  · next h => simp [tooOld, h]
  · next h =>
    have hb : (s.settings.linkAgeLimit != 0) = true := by simpa using h
    simp [agedLinks, tooOld, hb, linksOf]

theorem ageLinks_frame (s : State) :
    ageLinks s = { s with links := (ageLinks s).links, ports := (ageLinks s).ports } := by
  unfold ageLinks
  dsimp only
  split <;> rfl

section
variable (s : State)

@[simp] theorem ageLinks_pending : (ageLinks s).pending = s.pending := by rw [ageLinks_frame]
@[simp] theorem ageLinks_resetAsserted : (ageLinks s).resetAsserted = s.resetAsserted := by rw [ageLinks_frame]
@[simp] theorem ageLinks_active : (ageLinks s).active = s.active := by rw [ageLinks_frame]
@[simp] theorem ageLinks_shadow : (ageLinks s).shadow = s.shadow := by rw [ageLinks_frame]
@[simp] theorem ageLinks_sched : (ageLinks s).sched = s.sched := by rw [ageLinks_frame]
@[simp] theorem ageLinks_atomic : (ageLinks s).atomic = s.atomic := by rw [ageLinks_frame]
@[simp] theorem ageLinks_mem : (ageLinks s).mem = s.mem := by rw [ageLinks_frame]
@[simp] theorem ageLinks_memBeat : (ageLinks s).memBeat = s.memBeat := by rw [ageLinks_frame]
@[simp] theorem ageLinks_notices : (ageLinks s).notices = s.notices := by rw [ageLinks_frame]
@[simp] theorem ageLinks_counters : (ageLinks s).counters = s.counters := by rw [ageLinks_frame]
@[simp] theorem ageLinks_frameMarks : (ageLinks s).frameMarks = s.frameMarks := by rw [ageLinks_frame]
@[simp] theorem ageLinks_settings : (ageLinks s).settings = s.settings := by rw [ageLinks_frame]
@[simp] theorem ageLinks_mgmt : (ageLinks s).mgmt = s.mgmt := by rw [ageLinks_frame]
@[simp] theorem ageLinks_nextId : (ageLinks s).nextId = s.nextId := by rw [ageLinks_frame]
@[simp] theorem ageLinks_freeCount : (ageLinks s).freeCount = s.freeCount := by rw [ageLinks_frame]

end
section
variable (p : Port) (a : Word) (bytes serial : Nat) (s : State)

@[simp] theorem openLink_pending : (openLink p a bytes serial s).pending = s.pending := by rw [openLink_frame]
@[simp] theorem openLink_resetAsserted : (openLink p a bytes serial s).resetAsserted = s.resetAsserted := by rw [openLink_frame]
@[simp] theorem openLink_active : (openLink p a bytes serial s).active = s.active := by rw [openLink_frame]
@[simp] theorem openLink_shadow : (openLink p a bytes serial s).shadow = s.shadow := by rw [openLink_frame]
@[simp] theorem openLink_sched : (openLink p a bytes serial s).sched = s.sched := by rw [openLink_frame]
@[simp] theorem openLink_atomic : (openLink p a bytes serial s).atomic = s.atomic := by rw [openLink_frame]
@[simp] theorem openLink_mem : (openLink p a bytes serial s).mem = s.mem := by rw [openLink_frame]
@[simp] theorem openLink_memBeat : (openLink p a bytes serial s).memBeat = s.memBeat := by rw [openLink_frame]
@[simp] theorem openLink_notices : (openLink p a bytes serial s).notices = s.notices := by rw [openLink_frame]
@[simp] theorem openLink_counters : (openLink p a bytes serial s).counters = s.counters := by rw [openLink_frame]
@[simp] theorem openLink_frameMarks : (openLink p a bytes serial s).frameMarks = s.frameMarks := by rw [openLink_frame]
@[simp] theorem openLink_settings : (openLink p a bytes serial s).settings = s.settings := by rw [openLink_frame]
@[simp] theorem openLink_mgmt : (openLink p a bytes serial s).mgmt = s.mgmt := by rw [openLink_frame]
@[simp] theorem openLink_nextId : (openLink p a bytes serial s).nextId = s.nextId := by rw [openLink_frame]
@[simp] theorem openLink_freeCount : (openLink p a bytes serial s).freeCount = s.freeCount := by rw [openLink_frame]

end
section
variable (p : Port) (kind : BeatKind) (a : Word) (bytes serial : Nat) (s : State)

@[simp] theorem presentBeat_pending : (presentBeat p kind a bytes serial s).pending = s.pending := by rw [presentBeat_frame]
@[simp] theorem presentBeat_resetAsserted : (presentBeat p kind a bytes serial s).resetAsserted = s.resetAsserted := by rw [presentBeat_frame]
@[simp] theorem presentBeat_active : (presentBeat p kind a bytes serial s).active = s.active := by rw [presentBeat_frame]
@[simp] theorem presentBeat_shadow : (presentBeat p kind a bytes serial s).shadow = s.shadow := by rw [presentBeat_frame]
@[simp] theorem presentBeat_sched : (presentBeat p kind a bytes serial s).sched = s.sched := by rw [presentBeat_frame]
@[simp] theorem presentBeat_atomic : (presentBeat p kind a bytes serial s).atomic = s.atomic := by rw [presentBeat_frame]
@[simp] theorem presentBeat_mem : (presentBeat p kind a bytes serial s).mem = s.mem := by rw [presentBeat_frame]
@[simp] theorem presentBeat_memBeat : (presentBeat p kind a bytes serial s).memBeat = s.memBeat := by rw [presentBeat_frame]
@[simp] theorem presentBeat_notices : (presentBeat p kind a bytes serial s).notices = s.notices := by rw [presentBeat_frame]
@[simp] theorem presentBeat_counters : (presentBeat p kind a bytes serial s).counters = s.counters := by rw [presentBeat_frame]
@[simp] theorem presentBeat_frameMarks : (presentBeat p kind a bytes serial s).frameMarks = s.frameMarks := by rw [presentBeat_frame]
@[simp] theorem presentBeat_settings : (presentBeat p kind a bytes serial s).settings = s.settings := by rw [presentBeat_frame]
@[simp] theorem presentBeat_mgmt : (presentBeat p kind a bytes serial s).mgmt = s.mgmt := by rw [presentBeat_frame]
@[simp] theorem presentBeat_nextId : (presentBeat p kind a bytes serial s).nextId = s.nextId := by rw [presentBeat_frame]
@[simp] theorem presentBeat_freeCount : (presentBeat p kind a bytes serial s).freeCount = s.freeCount := by rw [presentBeat_frame]

end

end Sys2Proof.Machine
end

