-- ==== Sys2Proof/Laws/Notices.lean ====
section
/-! SUPPORT. What a raise does (R147 to R151), and the free order of raises that fall together. -/

namespace Sys2Proof.Machine

open Sys2Proof.Safety

/-! ### One raise -/

section
variable (n : Notice) (s : State)

@[simp] theorem raise_pending : (raise n s).pending = s.pending := rfl
@[simp] theorem raise_resetAsserted : (raise n s).resetAsserted = s.resetAsserted := rfl
@[simp] theorem raise_active : (raise n s).active = s.active := rfl
@[simp] theorem raise_shadow : (raise n s).shadow = s.shadow := rfl
@[simp] theorem raise_sched : (raise n s).sched = s.sched := rfl
@[simp] theorem raise_ports : (raise n s).ports = s.ports := rfl
@[simp] theorem raise_links : (raise n s).links = s.links := rfl
@[simp] theorem raise_atomic : (raise n s).atomic = s.atomic := rfl
@[simp] theorem raise_mem : (raise n s).mem = s.mem := rfl
@[simp] theorem raise_memBeat : (raise n s).memBeat = s.memBeat := rfl
@[simp] theorem raise_counters : (raise n s).counters = s.counters := rfl
@[simp] theorem raise_frameMarks : (raise n s).frameMarks = s.frameMarks := rfl
@[simp] theorem raise_settings : (raise n s).settings = s.settings := rfl
@[simp] theorem raise_mgmt : (raise n s).mgmt = s.mgmt := rfl
@[simp] theorem raise_nextId : (raise n s).nextId = s.nextId := rfl
@[simp] theorem raise_freeCount : (raise n s).freeCount = s.freeCount := rfl
@[simp] theorem raise_port (r : Port) : (raise n s).port r = s.port r := rfl

end

@[simp] theorem raise_notices (n : Notice) (s : State) :
    (raise n s).notices = s.notices.raise s.settings.noticeMask n s.sched.frameNumber := rfl

/-- A counter that stays at its largest value (spec/00, Conventions, Counters). -/
theorem satInc_byte (x : Byte) : satInc x = if x.toNat = 255 then x else x + 1 := by
  have h : x = BitVec.allOnes 8 ↔ x.toNat = 255 := by
    constructor
    · intro h
      rw [h]
      rfl
    · intro h
      exact BitVec.eq_of_toNat_eq h
  exact if_congr h rfl rfl

theorem satInc_half (x : Half) : satInc x = if x.toNat = 65535 then x else x + 1 := by
  have h : x = BitVec.allOnes 16 ↔ x.toNat = 65535 := by
    constructor
    · intro h
      rw [h]
      rfl
    · intro h
      exact BitVec.eq_of_toNat_eq h
  exact if_congr h rfl rfl

/-- A bit read by its number is the bit of the number's binary form. -/
theorem getLsbD_div (mask : Byte) (k : Nat) : mask.getLsbD k = decide (mask.toNat / 2 ^ k % 2 = 1) := by
  rw [BitVec.getLsbD, Nat.testBit_eq_decide_div_mod_eq]

/-- A kind is masked when the flag of its code is set (R151). -/
theorem unmasked_eq (mask : Byte) (r : NoticeRecord) : unmasked mask r = !maskedBy mask r.notice := by
  unfold unmasked maskedBy
  rw [getLsbD_div]
  cases r.notice <;> rfl

/-- The NOTICE line as the statements say it. -/
theorem noticeLine_eq (mask : Byte) (records : List NoticeRecord) : noticeLine mask records = lineOf mask records := by
  unfold noticeLine lineOf
  congr 1
  funext r
  exact unmasked_eq mask r

/-- A raise is a merge, an append or a drop (R148). -/
theorem raise_cases (q : NoticeQueue) (mask : Byte) (n : Notice) (frame : Half) :
    (mergeable q n = true ∧ q.raise mask n frame = { q with records := q.records.map (bumpRepeat n) }) ∨
      (mergeable q n = false ∧ q.records.length < 8 ∧
        q.raise mask n frame =
          { q with
            records := q.records ++ [{ notice := n, frame := frame, repeats := 1 }]
            line := noticeLine mask (q.records ++ [{ notice := n, frame := frame, repeats := 1 }]) }) ∨
      (mergeable q n = false ∧ 8 ≤ q.records.length ∧ q.raise mask n frame = { q with lost := satInc q.lost }) := by
  unfold NoticeQueue.raise
  split
  · next h => exact .inl ⟨h, rfl⟩
  · next h =>
    have h' : mergeable q n = false := by simpa using h
    split
    · next g => exact .inr (.inl ⟨h', g, rfl⟩)
    · next g => exact .inr (.inr ⟨h', Nat.le_of_not_lt g, rfl⟩)

/-- A merge changes no record's notice. -/
@[simp] theorem bumpRepeat_notice (n : Notice) (r : NoticeRecord) : (bumpRepeat n r).notice = r.notice := by
  unfold bumpRepeat
  split <;> rfl

/-- A merge leaves the line as the queue calls for. -/
theorem noticeLine_bump (mask : Byte) (n : Notice) (records : List NoticeRecord) :
    noticeLine mask (records.map (bumpRepeat n)) = noticeLine mask records := by
  simp only [noticeLine, List.any_map]
  congr 1
  funext r
  simp [unmasked]

/-! ### Several raises -/

theorem raiseAll_eq (l : List Notice) (s : State) :
    raiseAll l s = s.setNotices (afterRaises s.settings.noticeMask s.sched.frameNumber s.notices l) := by
  induction l generalizing s with
  | nil => rfl
  | cons n rest ih => exact ih (raise n s)

theorem afterRaises_append (mask : Byte) (frame : Half) (q : NoticeQueue) (a b : List Notice) :
    afterRaises mask frame q (a ++ b) = afterRaises mask frame (afterRaises mask frame q a) b := by
  simp [afterRaises]

/-- What one raise keeps, several keep. -/
theorem afterRaises_induct {P : NoticeQueue → Prop} {mask : Byte} {frame : Half} {q : NoticeQueue} (l : List Notice)
    (h0 : P q) (hs : ∀ q n, P q → P (q.raise mask n frame)) : P (afterRaises mask frame q l) := by
  induction l generalizing q with
  | nil => exact h0
  | cons n rest ih => exact ih (hs q n h0)

/-! ### A free order -/

/-- A permutation named by a number is a permutation. -/
theorem permuteBy_perm {α : Type} (fuel k : Nat) (l : List α) : (permuteBy fuel k l).Perm l := by
  induction fuel generalizing k l with
  | zero => exact List.Perm.refl l
  | succ fuel ih =>
    unfold permuteBy
    split
    · exact List.Perm.refl l
    · next x hx =>
      obtain ⟨hi, rfl⟩ := List.getElem?_eq_some_iff.1 hx
      exact (List.Perm.cons _ (ih _ _)).trans (List.getElem_cons_eraseIdx_perm hi)

/-- The STARVED notices of a frame mark are raised once for each port of the list, in some order; nothing but the notice
queue and the number of the next free choice changes (log 8). -/
theorem raiseStarved_spec (ports : List Port) (s : State) :
    ∃ order : List Port, order.Perm ports ∧ ∃ count : Nat,
      raiseStarved ports s =
        (s.setFreeCount count).setNotices
          (afterRaises s.settings.noticeMask s.sched.frameNumber s.notices (order.map Notice.starved)) := by
  unfold raiseStarved
  split
  · exact ⟨ports, List.Perm.refl _, s.freeCount, by rw [raiseAll_eq]; rfl⟩
  · exact ⟨_, permuteBy_perm _ _ _, s.freeCount + 1, by rw [raiseAll_eq]; rfl⟩

end Sys2Proof.Machine
end

