-- ==== Sys2Proof/Laws/Queue.lean ====
section
/-! SUPPORT. What the operations on a port's queue do: the issue head (R17), changes of an entry, and the LINK DROPs that
take effect (R93). -/

namespace Sys2Proof.Machine

open Sys2Proof.Safety

/-! ### Entries -/

/-- An entry is not fully issued exactly in WAITING and PARTIAL. -/
theorem fullyIssued_eq_false (e : Entry) : e.fullyIssued = false ↔ e.state = .waiting ∨ e.state = .partly := by
  unfold Entry.fullyIssued
  cases e.state <;> simp

theorem fullyIssued_eq_true (e : Entry) : e.fullyIssued = true ↔ e.state ≠ .waiting ∧ e.state ≠ .partly := by
  unfold Entry.fullyIssued
  cases e.state <;> simp

/-- The issue head depends on the port's state and queue alone. -/
theorem issueHead_congr {x y : PortRec} (hs : x.state = y.state) (hq : x.queue = y.queue) : issueHead x = issueHead y := by
  unfold issueHead
  rw [hs, hq]

/-- What an issue head is (R17). -/
theorem issueHead_some {x : PortRec} {e : Entry} (h : issueHead x = some e) :
    x.state ≠ .resetting ∧ e.req.kind ≠ .linkDrop ∧ e.fullyIssued = false ∧ e ∈ x.queue ∧
      x.queue.find? (fun e => !e.fullyIssued) = some e := by
  unfold issueHead at h
  split at h
  · cases h
  · next hs =>
    split at h
    · next e' he =>
      split at h
      · cases h
      · next hk =>
        cases h
        exact ⟨hs, hk, by simpa using List.find?_some he, List.mem_of_find?_eq_some he, he⟩
    · cases h

/-! ### A changed entry -/

@[simp] theorem modEntry_queue (id : Nat) (f : Entry → Entry) (x : PortRec) :
    (modEntry id f x).queue = changed id f x.queue := rfl

@[simp] theorem modEntry_state (id : Nat) (f : Entry → Entry) (x : PortRec) : (modEntry id f x).state = x.state := rfl
@[simp] theorem modEntry_enabled (id : Nat) (f : Entry → Entry) (x : PortRec) : (modEntry id f x).enabled = x.enabled := rfl
@[simp] theorem modEntry_prst (id : Nat) (f : Entry → Entry) (x : PortRec) : (modEntry id f x).prst = x.prst := rfl
@[simp] theorem modEntry_presented (id : Nat) (f : Entry → Entry) (x : PortRec) : (modEntry id f x).presented = x.presented := rfl
@[simp] theorem modEntry_waitCounter (id : Nat) (f : Entry → Entry) (x : PortRec) : (modEntry id f x).waitCounter = x.waitCounter := rfl
@[simp] theorem modEntry_watching (id : Nat) (f : Entry → Entry) (x : PortRec) : (modEntry id f x).watching = x.watching := rfl
@[simp] theorem modEntry_starved (id : Nat) (f : Entry → Entry) (x : PortRec) : (modEntry id f x).starved = x.starved := rfl
@[simp] theorem modEntry_granted (id : Nat) (f : Entry → Entry) (x : PortRec) : (modEntry id f x).granted = x.granted := rfl
@[simp] theorem modEntry_slack (id : Nat) (f : Entry → Entry) (x : PortRec) : (modEntry id f x).slack = x.slack := rfl
@[simp] theorem modEntry_condOk (id : Nat) (f : Entry → Entry) (x : PortRec) : (modEntry id f x).condOk = x.condOk := rfl
@[simp] theorem modEntry_condFail (id : Nat) (f : Entry → Entry) (x : PortRec) : (modEntry id f x).condFail = x.condFail := rfl
@[simp] theorem modEntry_refused (id : Nat) (f : Entry → Entry) (x : PortRec) : (modEntry id f x).refused = x.refused := rfl
@[simp] theorem modEntry_clampCount (id : Nat) (f : Entry → Entry) (x : PortRec) : (modEntry id f x).clampCount = x.clampCount := rfl
@[simp] theorem modEntry_lastLoss (id : Nat) (f : Entry → Entry) (x : PortRec) : (modEntry id f x).lastLoss = x.lastLoss := rfl
@[simp] theorem modEntry_lossCount (id : Nat) (f : Entry → Entry) (x : PortRec) : (modEntry id f x).lossCount = x.lossCount := rfl
@[simp] theorem modEntry_lastResponse (id : Nat) (f : Entry → Entry) (x : PortRec) : (modEntry id f x).lastResponse = x.lastResponse := rfl

@[simp] theorem changed_length (id : Nat) (f : Entry → Entry) (q : List Entry) : (changed id f q).length = q.length := by
  simp [changed]

@[simp] theorem changed_nil (id : Nat) (f : Entry → Entry) : changed id f [] = [] := rfl

theorem mem_changed {id : Nat} {f : Entry → Entry} {q : List Entry} {e : Entry} (h : e ∈ changed id f q) :
    ∃ e' ∈ q, (e = f e' ∧ e'.id = id) ∨ (e = e' ∧ e'.id ≠ id) := by
  obtain ⟨e', he, rfl⟩ := List.mem_map.1 h
  refine ⟨e', he, ?_⟩
  by_cases hi : e'.id = id
  · exact .inl ⟨by simp [hi], hi⟩
  · exact .inr ⟨by simp [hi], hi⟩

/-- A beat issued, or a conditional write judged: frame watch and STARVED episode alone. -/
@[simp] theorem noteService_queue (x : PortRec) : (noteService x).queue = x.queue := rfl

@[simp] theorem noteService_state (x : PortRec) : (noteService x).state = x.state := rfl
@[simp] theorem noteService_enabled (x : PortRec) : (noteService x).enabled = x.enabled := rfl
@[simp] theorem noteService_prst (x : PortRec) : (noteService x).prst = x.prst := rfl
@[simp] theorem noteService_presented (x : PortRec) : (noteService x).presented = x.presented := rfl
@[simp] theorem noteService_waitCounter (x : PortRec) : (noteService x).waitCounter = x.waitCounter := rfl
@[simp] theorem noteService_watching (x : PortRec) : (noteService x).watching = false := rfl
@[simp] theorem noteService_starved (x : PortRec) : (noteService x).starved = false := rfl
@[simp] theorem noteService_granted (x : PortRec) : (noteService x).granted = x.granted := rfl
@[simp] theorem noteService_slack (x : PortRec) : (noteService x).slack = x.slack := rfl
@[simp] theorem noteService_condOk (x : PortRec) : (noteService x).condOk = x.condOk := rfl
@[simp] theorem noteService_condFail (x : PortRec) : (noteService x).condFail = x.condFail := rfl
@[simp] theorem noteService_refused (x : PortRec) : (noteService x).refused = x.refused := rfl
@[simp] theorem noteService_clampCount (x : PortRec) : (noteService x).clampCount = x.clampCount := rfl
@[simp] theorem noteService_lastLoss (x : PortRec) : (noteService x).lastLoss = x.lastLoss := rfl
@[simp] theorem noteService_lossCount (x : PortRec) : (noteService x).lossCount = x.lossCount := rfl
@[simp] theorem noteService_lastResponse (x : PortRec) : (noteService x).lastResponse = x.lastResponse := rfl

/-- A port without an issue head has its frame watch clear; nothing else changes (R130). -/
theorem clearIdleWatch_eq (x : PortRec) :
    clearIdleWatch x = { x with watching := x.watching && (issueHead x).isSome } := by
  unfold clearIdleWatch
  cases h : issueHead x <;> simp

/-! ### LINK DROPs that take effect -/

/-- With none due, none is settled. -/
theorem settleDrops_of_not_due {q : List Entry} (h : dropDue q = false) : settleDrops q = q := by
  induction q with
  | nil => rfl
  | cons e rest ih =>
    unfold dropDue at h
    unfold settleDrops
    split at h
    · next hf => rw [if_pos hf, ih h]
    · next hf =>
      rw [if_neg hf, if_neg]
      simpa using h

/-- After the settling none is due. -/
@[simp] theorem dropDue_settleDrops (q : List Entry) : dropDue (settleDrops q) = false := by
  induction q with
  | nil => rfl
  | cons e rest ih =>
    unfold settleDrops
    split
    · next hf =>
      unfold dropDue
      rw [if_pos hf, ih]
    · next hf =>
      split
      · next hd =>
        unfold dropDue
        rw [if_pos (by rfl), ih]
      · next hd =>
        unfold dropDue
        rw [if_neg hf]
        simpa using hd

@[simp] theorem settleDrops_length (q : List Entry) : (settleDrops q).length = q.length := by
  induction q with
  | nil => rfl
  | cons e rest ih =>
    unfold settleDrops
    split
    · simp [ih]
    · split <;> simp [ih]

/-- A settled entry is one of the queue, or a LINK DROP of it that is READY_TO_ANSWER. -/
theorem mem_settleDrops {q : List Entry} {e : Entry} (h : e ∈ settleDrops q) :
    e ∈ q ∨ ∃ d ∈ q, d.req.kind = .linkDrop ∧ d.state = .waiting ∧ e = { d with state := .ready .done } := by
  induction q with
  | nil => cases h
  | cons d rest ih =>
    unfold settleDrops at h
    split at h
    · rcases List.mem_cons.1 h with rfl | h
      · exact .inl (List.mem_cons_self ..)
      · rcases ih h with h | ⟨c, hc, h⟩
        · exact .inl (List.mem_cons_of_mem _ h)
        · exact .inr ⟨c, List.mem_cons_of_mem _ hc, h⟩
    · split at h
      · next hd =>
        rcases List.mem_cons.1 h with rfl | h
        · exact .inr ⟨d, List.mem_cons_self .., hd.1, hd.2, rfl⟩
        · rcases ih h with h | ⟨c, hc, h⟩
          · exact .inl (List.mem_cons_of_mem _ h)
          · exact .inr ⟨c, List.mem_cons_of_mem _ hc, h⟩
      · exact .inl h

/-- What the LINK DROPs that are due do to a port: they are answered, and its links close DROPPED (R93). -/
theorem takeDrops_port (p r : Port) (s : State) :
    (takeDrops p s).port r =
      if r = p then
        { recordLoss .dropped (dropsOf p (s.port p).queue s.links) (s.port p) with
          queue := settleDrops (s.port p).queue }
      else s.port r := by
  unfold takeDrops dropsOf
  split
  · next h =>
    simp only [port_modPort, closeWhere_port, linksOf_holder]
    split
    · next hr => subst hr; simp
    · next hr => simp
  · next h =>
    have h' : dropDue (s.port p).queue = false := by simpa using h
    split
    · next hr => subst hr; simp [settleDrops_of_not_due h']
    · rfl

/-- What they do to the links. -/
@[simp] theorem takeDrops_links (p : Port) (s : State) :
    (takeDrops p s).links = withDrops p (s.port p).queue s.links := by
  unfold takeDrops withDrops
  split
  · rfl
  · rfl

/-- Nothing but links and the port's record changes. -/
theorem takeDrops_frame (p : Port) (s : State) :
    takeDrops p s = { s with links := (takeDrops p s).links, ports := (takeDrops p s).ports } := by
  unfold takeDrops
  split <;> rfl

section
variable (p : Port) (s : State)

@[simp] theorem takeDrops_pending : (takeDrops p s).pending = s.pending := by rw [takeDrops_frame]
@[simp] theorem takeDrops_resetAsserted : (takeDrops p s).resetAsserted = s.resetAsserted := by rw [takeDrops_frame]
@[simp] theorem takeDrops_active : (takeDrops p s).active = s.active := by rw [takeDrops_frame]
@[simp] theorem takeDrops_shadow : (takeDrops p s).shadow = s.shadow := by rw [takeDrops_frame]
@[simp] theorem takeDrops_sched : (takeDrops p s).sched = s.sched := by rw [takeDrops_frame]
@[simp] theorem takeDrops_atomic : (takeDrops p s).atomic = s.atomic := by rw [takeDrops_frame]
@[simp] theorem takeDrops_mem : (takeDrops p s).mem = s.mem := by rw [takeDrops_frame]
@[simp] theorem takeDrops_memBeat : (takeDrops p s).memBeat = s.memBeat := by rw [takeDrops_frame]
@[simp] theorem takeDrops_notices : (takeDrops p s).notices = s.notices := by rw [takeDrops_frame]
@[simp] theorem takeDrops_counters : (takeDrops p s).counters = s.counters := by rw [takeDrops_frame]
@[simp] theorem takeDrops_frameMarks : (takeDrops p s).frameMarks = s.frameMarks := by rw [takeDrops_frame]
@[simp] theorem takeDrops_settings : (takeDrops p s).settings = s.settings := by rw [takeDrops_frame]
@[simp] theorem takeDrops_mgmt : (takeDrops p s).mgmt = s.mgmt := by rw [takeDrops_frame]
@[simp] theorem takeDrops_nextId : (takeDrops p s).nextId = s.nextId := by rw [takeDrops_frame]
@[simp] theorem takeDrops_freeCount : (takeDrops p s).freeCount = s.freeCount := by rw [takeDrops_frame]

end

/-- With no link in the table, the LINK DROPs of several ports are answered and that is all. -/
theorem takeDropsOf_noLinks (ports : List Port) (s : State) (h : s.links = []) :
    (∀ r : Port,
        (takeDropsOf ports s).port r =
          if r ∈ ports then { s.port r with queue := settleDrops (s.port r).queue } else s.port r) ∧
      takeDropsOf ports s = { s with ports := (takeDropsOf ports s).ports } := by
  have hl : ∀ (p : Port) (q : List Entry) (links : List Link), links = [] → dropsOf p q links = 0 := by
    intro p q links hl
    subst hl
    simp [dropsOf, heldBy]
  induction ports generalizing s with
  | nil => exact ⟨fun r => by simp [takeDropsOf], rfl⟩
  | cons p rest ih =>
    have h1 : (takeDrops p s).links = [] := by
      rw [takeDrops_links, h]
      simp [withDrops]
    obtain ⟨hp, hf⟩ := ih (takeDrops p s) h1
    constructor
    · intro r
      change (takeDropsOf rest (takeDrops p s)).port r = _
      rw [hp r, takeDrops_port, hl _ _ _ h, recordLoss_zero]
      by_cases hr : r = p
      · subst hr
        simp [settleDrops_of_not_due]
      · simp [hr]
    · apply state_eq <;> first | rfl | (simp only [takeDropsOf]; rw [hf]; simp [h, withDrops])

end Sys2Proof.Machine
end

