-- ==== Sys2Proof/Laws/Slots.lean ====
section
/-! SUPPORT. What slots, frames and maintenance windows do (spec/02, spec/03, R145). -/

namespace Sys2Proof.Machine

open Sys2Proof.Safety

/-! ### Maintenance windows -/

/-- MAINT_GRANT after a happening: asserted if its conditions hold, with the window's count; nothing else (R145). -/
theorem grantMaint_spec (s : State) : WindowAfter s (grantMaint s) := by
  unfold grantMaint
  split
  · next h =>
    unfold maintDue at h
    dsimp only [WindowAfter]
    rw [h]
    simp only [Bool.or_true, if_true]
    rfl
  · next h =>
    unfold maintDue at h
    dsimp only [WindowAfter]
    rw [Bool.not_eq_true] at h
    rw [h]
    simp

section
variable (s : State)

@[simp] theorem grantMaint_pending : (grantMaint s).pending = s.pending := by rw [grantMaint_spec s]
@[simp] theorem grantMaint_resetAsserted : (grantMaint s).resetAsserted = s.resetAsserted := by rw [grantMaint_spec s]
@[simp] theorem grantMaint_active : (grantMaint s).active = s.active := by rw [grantMaint_spec s]
@[simp] theorem grantMaint_shadow : (grantMaint s).shadow = s.shadow := by rw [grantMaint_spec s]
@[simp] theorem grantMaint_sched : (grantMaint s).sched = s.sched := by rw [grantMaint_spec s]
@[simp] theorem grantMaint_ports : (grantMaint s).ports = s.ports := by rw [grantMaint_spec s]
@[simp] theorem grantMaint_links : (grantMaint s).links = s.links := by rw [grantMaint_spec s]
@[simp] theorem grantMaint_atomic : (grantMaint s).atomic = s.atomic := by rw [grantMaint_spec s]
@[simp] theorem grantMaint_memBeat : (grantMaint s).memBeat = s.memBeat := by rw [grantMaint_spec s]
@[simp] theorem grantMaint_notices : (grantMaint s).notices = s.notices := by rw [grantMaint_spec s]
@[simp] theorem grantMaint_frameMarks : (grantMaint s).frameMarks = s.frameMarks := by rw [grantMaint_spec s]
@[simp] theorem grantMaint_settings : (grantMaint s).settings = s.settings := by rw [grantMaint_spec s]
@[simp] theorem grantMaint_mgmt : (grantMaint s).mgmt = s.mgmt := by rw [grantMaint_spec s]
@[simp] theorem grantMaint_nextId : (grantMaint s).nextId = s.nextId := by rw [grantMaint_spec s]
@[simp] theorem grantMaint_freeCount : (grantMaint s).freeCount = s.freeCount := by rw [grantMaint_spec s]
@[simp] theorem grantMaint_port (r : Port) : (grantMaint s).port r = s.port r := by rw [grantMaint_spec s]; rfl

end

/-! ### The choice of the grantee -/

/-- The ready test looks at the ports and at SPLIT_OK alone (R18). -/
theorem portReady_congr {s t : State} (hp : ∀ p : Port, s.port p = t.port p) (hs : s.settings = t.settings) (n : Nat)
    (p : Port) : portReady s n p = portReady t n p := by
  unfold portReady
  rw [hp p, hs]

/-- For a POOL slot, readiness is the ready test of R18. -/
theorem readyFor_pool (s : State) (n : Nat) : readyFor s (.pool n) = portReady s n := by
  funext p
  simp [readyFor, haltingOwner, SlotRecord.length]

/-- For an OWNED slot, readiness is that of R18 and R10. -/
theorem readyFor_owned (s : State) (o : Port) (n : Nat) (d : Bool) :
    readyFor s (.owned o n d) = readyInOwned s o n := by
  funext p
  unfold readyFor haltingOwner readyInOwned
  dsimp only [SlotRecord.length]
  by_cases h : p = o
  · subst h
    by_cases hs : (s.port p).state = .halting <;> cases Config.haltingOwnerReady <;> simp [hs]
  · simp [h, Ne.symm h]

/-- The pool pick is that of R23. -/
theorem poolPick_picked (s : State) (r : SlotRecord) :
    Picked s (readyFor s r) (poolPick s r).1 (poolPick s r).2 := by
  have ho : pickOrder s.sched.poolNext = List.map (fun k => s.sched.poolNext + k) Port.all := rfl
  have hm : ∀ k : Fin 8, k ∈ Port.all := by decide
  unfold poolPick
  rw [ho, List.find?_map]
  cases h : List.find? (readyFor s r ∘ fun k => s.sched.poolNext + k) Port.all with
  | none =>
    right
    refine ⟨fun p => ?_, rfl, rfl⟩
    rw [List.find?_eq_none] at h
    have := h (p - s.sched.poolNext) (hm _)
    simpa [sub_add_cancel, add_comm] using this
  | some k =>
    left
    refine ⟨k, by simpa using List.find?_some h, fun j hj => ?_, rfl, rfl⟩
    obtain ⟨_, front, back, he, hf⟩ := List.find?_eq_some_iff_append.1 h
    have hjf : j ∈ front := by
      have hs : Port.all.Pairwise (· < ·) := by decide
      have hj' := hm j
      rw [he] at hs hj'
      rcases List.mem_append.1 hj' with hj' | hj'
      · exact hj'
      · exfalso
        have hs' := (List.pairwise_append.1 hs).2.1
        rcases List.mem_cons.1 hj' with rfl | hj'
        · exact lt_irrefl _ hj
        · exact lt_asymm hj ((List.pairwise_cons.1 hs').1 j hj')
    simpa using hf j hjf

/-- The grantee and POOL_NEXT are those of R21 to R25. -/
theorem chooseGrantee_granted (s : State) (r : SlotRecord) :
    Granted s r (chooseGrantee s r).1 (chooseGrantee s r).2 := by
  unfold chooseGrantee
  dsimp only [Granted]
  split
  · exact ⟨rfl, rfl⟩
  · cases r with
    | owned o n d =>
      dsimp only
      rw [← readyFor_owned s o n d]
      split
      · exact ⟨rfl, rfl⟩
      · split
        · exact poolPick_picked s _
        · exact ⟨rfl, rfl⟩
    | pool n =>
      dsimp only
      rw [← readyFor_pool s n]
      exact poolPick_picked s _
    | quiet n => exact ⟨rfl, rfl⟩

/-- Two states with the same ports, settings, memory port state and POOL_NEXT choose alike. -/
theorem granted_congr {s t : State} (hp : ∀ p : Port, s.port p = t.port p) (hs : s.settings = t.settings)
    (hm : s.mem.state = t.mem.state) (hn : s.sched.poolNext = t.sched.poolNext) {r : SlotRecord} {g : Option Port}
    {next : Port} (h : Granted s r g next) : Granted t r g next := by
  have hr : portReady s = portReady t := by
    funext n p
    exact portReady_congr hp hs n p
  have ho : readyInOwned s = readyInOwned t := by
    funext o n p
    unfold readyInOwned
    rw [hp o, hr]
  unfold Granted Picked at *
  rw [← hr, ← ho, ← hm, ← hn]
  exact h

/-! ### A slot starts -/

/-- A slot start says all of R5, R20 to R26 and R145. -/
theorem startSlot_spec (i : Fin 32) (s : State) : SlotStarted s (startSlot i s) i := by
  unfold startSlot
  dsimp only [SlotStarted]
  refine ⟨?_, ?_, ?_⟩
  · simpa using chooseGrantee_granted s (s.active.slots.get i)
  · rw [grantMaint_spec]
    dsimp only [WindowAtStart]
    cases s.active.slots.get i <;> simp [SlotRecord.isQuiet]
  · rw [grantMaint_spec]
    rfl

/-! ### A frame starts -/

/-- The frame mark as the links and the ports see it (R43, R71, R130, R131). -/
theorem frameMark_spec (s : State) :
    (∀ p : Port, (frameMark s).port p = portAtMark s p) ∧
      (frameMark s).links = (agedLinks s).filter (fun l => !tooOld s l) ∧
        (∃ order : List Port, order.Perm (Port.all.filter fun p => starvesAtMark s p) ∧
          (frameMark s).notices =
            afterRaises s.settings.noticeMask s.sched.frameNumber s.notices (order.map Notice.starved)) ∧
          frameMark s =
            { s with
              ports := (frameMark s).ports
              links := (frameMark s).links
              mem := { s.mem with wedgedSinceMark := s.mem.state == .wedged }
              notices := (frameMark s).notices
              freeCount := (frameMark s).freeCount } := by
  have ha := ageLinks_frame s
  have hh : (decide (s.mem.state = .wedged) || s.mem.wedgedSinceMark) = true ↔
      s.mem.state = .wedged ∨ s.mem.wedgedSinceMark = true := by simp
  have hc : ∀ (p : Port) (c : LossCause) (n : Nat),
      markCounter (decide (s.mem.state = .wedged) || s.mem.wedgedSinceMark) (recordLoss c n (s.port p)) =
        counterAtMark s p := by
    intro p c n
    unfold markCounter counterAtMark
    simp only [hh, recordLoss_waitCounter, recordLoss_watching]
  have hst : ∀ (p : Port) (c : LossCause) (n : Nat),
      raisesStarved (decide (s.mem.state = .wedged) || s.mem.wedgedSinceMark) s.settings.waitLimit
        (recordLoss c n (s.port p)) = starvesAtMark s p := by
    intro p c n
    unfold raisesStarved starvesAtMark
    rw [hc, recordLoss_starved]
  have hmem : (ageLinks s).mem = s.mem := by rw [ha]
  have hset : (ageLinks s).settings = s.settings := by rw [ha]
  have hsch : (ageLinks s).sched = s.sched := by rw [ha]
  have hnot : (ageLinks s).notices = s.notices := by rw [ha]
  unfold frameMark markPorts
  dsimp only
  simp only [hmem, hset, ageLinks_port, hst]
  obtain ⟨order, hperm, count, he⟩ :=
    raiseStarved_spec (Port.all.filter fun p => starvesAtMark s p)
      (((ageLinks s).mapPorts fun _ x =>
            markPort (decide (s.mem.state = .wedged) || s.mem.wedgedSinceMark) (decide (s.mem.state = .ready))
              s.settings.waitLimit x).setMem
        { s.mem with wedgedSinceMark := decide (s.mem.state = .wedged) })
  rw [he]
  refine ⟨fun p => ?_, ?_, ⟨order, hperm, ?_⟩, ?_⟩
  · simp only [setNotices_port, setFreeCount_port, setMem_port, port_mapPorts, ageLinks_port]
    unfold markPort portAtMark
    rw [hc, hst, issueHead_recordLoss]
    dsimp only
    rw [recordLoss_eq]
    dsimp only
    rw [Bool.and_comm]
    cases s.mem.state <;> rfl
  · simp only [setNotices_links, setFreeCount_links, setMem_links, mapPorts_links, ageLinks_links]
  · simp only [setNotices_notices, setMem_settings, mapPorts_settings, setMem_sched, mapPorts_sched, setMem_notices,
      mapPorts_notices, hset, hsch, hnot]
  · have hw : decide (s.mem.state = .wedged) = (s.mem.state == .wedged) := by cases s.mem.state <;> rfl
    rw [hw]
    apply state_eq <;> first | rfl | simp

/-- The steps of a frame start up to the pulse of FRAME_MARK (R42, R53). -/
theorem countFrame_spec (s : State) :
    countFrame s =
      { s with
        active := if s.sched.commit = .pending then s.shadow else s.active
        sched := { s.sched with commit := .none, frameNumber := s.sched.frameNumber + 1 }
        notices :=
          if s.sched.commit = .pending then
            s.notices.raise s.settings.noticeMask .tableSwapped (s.sched.frameNumber + 1)
          else s.notices
        frameMarks := s.frameMarks + 1 } := by
  cases h : s.sched.commit with
  | none =>
    unfold countFrame
    dsimp only
    simp only [h, reduceCtorEq, if_false]
    rw [← h]
    rfl
  | pending =>
    unfold countFrame
    dsimp only
    simp only [h, if_true]
    rfl

/-- The counting of a frame and its mark, before slot 0 starts (R42, R43). -/
theorem markTaken_spec (s : State) : MarkTaken s (frameMark (countFrame s)) := by
  have hu := countFrame_spec s
  set u := countFrame s with hud
  clear_value u
  obtain ⟨mp, ml, ⟨order, hperm, mn⟩, mt⟩ := frameMark_spec u
  set t := frameMark u with htd
  clear_value t
  have uset : u.settings = s.settings := by rw [hu]
  have ulinks : u.links = s.links := by rw [hu]
  have umem : u.mem = s.mem := by rw [hu]
  have ufn : u.sched.frameNumber = s.sched.frameNumber + 1 := by rw [hu]
  have uport : ∀ p : Port, u.port p = s.port p := fun p => by
    rw [hu]
    rfl
  have hst : starvesAtMark u = starvesAtMark s := by
    funext p
    unfold starvesAtMark counterAtMark
    rw [uset, umem, uport]
  have hpm : portAtMark u = portAtMark s := by
    funext p
    unfold portAtMark counterAtMark agedLinks tooOld
    rw [hst, uset, umem, uport, ulinks]
  have hal : agedLinks u = agedLinks s := by
    unfold agedLinks
    rw [ulinks]
  have hto : tooOld u = tooOld s := by
    funext l
    unfold tooOld
    rw [uset]
  have tsc : t.sched = u.sched := by rw [mt]
  refine ⟨fun p => by rw [mp, hpm], by rw [ml, hal, hto], ⟨order, ?_, ?_⟩, ?_⟩
  · rw [← hst]
    exact hperm
  · rw [mn, uset, tsc, ufn, afterRaises_append, hu]
    dsimp only
    congr 1
    split <;> rfl
  · rw [mt]
    apply state_eq <;> first | rfl | (rw [hu])

/-- A frame start says all of R42 and R43. -/
theorem frameStart_spec (s : State) : FrameStarted s (frameStart s) := by
  have hu := countFrame_spec s
  set u := countFrame s with hud
  clear_value u
  have hv := startSlot_spec 0 (u.setSched { u.sched with state := .running, timer := none })
  have hm := frameMark_spec (startSlot 0 (u.setSched { u.sched with state := .running, timer := none }))
  have ht : frameStart s =
      frameMark (startSlot 0 (u.setSched { u.sched with state := .running, timer := none })) := by
    rw [hud]
    rfl
  rw [ht]
  set v := startSlot 0 (u.setSched { u.sched with state := .running, timer := none }) with hvd
  clear_value v
  set t := frameMark v with htd
  clear_value t
  obtain ⟨hg, hw, hve⟩ := hv
  obtain ⟨mp, ml, ⟨order, hperm, mn⟩, mt⟩ := hm
  have tac : t.active = v.active := by rw [mt]
  have tsc : t.sched = v.sched := by rw [mt]
  have tco : t.counters = v.counters := by rw [mt]
  have tme : t.mem = { v.mem with wedgedSinceMark := v.mem.state == .wedged } := by rw [mt]
  have vac : v.active = if s.sched.commit = .pending then s.shadow else s.active := by
    rw [hve, hu]
    rfl
  have vset : v.settings = s.settings := by
    rw [hve, hu]
    rfl
  have vlinks : v.links = s.links := by
    rw [hve, hu]
    rfl
  have vports : v.ports = s.ports := by
    rw [hve, hu]
    rfl
  have vport : ∀ p : Port, v.port p = s.port p := fun p => by
    unfold State.port
    rw [vports]
  have vms : v.mem.state = s.mem.state := by
    rw [hve, hu]
    rfl
  have vmw : v.mem.wedgedSinceMark = s.mem.wedgedSinceMark := by
    rw [hve, hu]
    rfl
  have vno : v.notices =
      if s.sched.commit = .pending then
        s.notices.raise s.settings.noticeMask .tableSwapped (s.sched.frameNumber + 1)
      else s.notices := by
    rw [hve, hu]
    rfl
  have vfn : v.sched.frameNumber = s.sched.frameNumber + 1 := by
    rw [hve, hu]
    rfl
  have hst : starvesAtMark v = starvesAtMark s := by
    funext p
    unfold starvesAtMark counterAtMark
    rw [vset, vms, vmw, vport]
  have hpm : portAtMark v = portAtMark s := by
    funext p
    unfold portAtMark counterAtMark agedLinks tooOld
    rw [hst, vset, vms, vmw, vport, vlinks]
  have hal : agedLinks v = agedLinks s := by
    unfold agedLinks
    rw [vlinks]
  have hto : tooOld v = tooOld s := by
    funext l
    unfold tooOld
    rw [vset]
  refine ⟨tac.trans vac, ?_, ?_, fun p => by rw [mp, hpm], by rw [ml, hal, hto], ⟨order, ?_, ?_⟩, ?_⟩
  · have hg' := hg
    rw [tsc, tac]
    have hact : (u.setSched { u.sched with state := .running, timer := none }).active = v.active := by
      rw [vac, hu]
      rfl
    rw [hact] at hg'
    refine granted_congr (fun p => ?_) ?_ ?_ ?_ hg'
    · rw [hu]
      rfl
    · rw [hu]
      rfl
    · rw [hu]
      rfl
    · rw [hu]
      rfl
  · have hact : (u.setSched { u.sched with state := .running, timer := none }).active = v.active := by
      rw [vac, hu]
      rfl
    rw [hact] at hw
    dsimp only [WindowAtStart] at hw ⊢
    rw [tme, tco, tac]
    rw [hu] at hw
    exact hw
  · rw [← hst]
    exact hperm
  · rw [mn, vset, vno, vfn, tsc, vfn, afterRaises_append]
    congr 1
    split <;> rfl
  · rw [mt]
    apply state_eq <;> first | rfl | (rw [hve, hu]; rfl)

/-! ### A slot ends -/

/-- The scheduler enters GAP, with the mode in force as it is (R45, R50). -/
theorem enterGap_spec (s : State) : InGap s (enterGap s) s.sched.syncInForce := rfl

/-- The scheduler enters STOPPED (R51). -/
theorem enterStopped_spec (s : State) : Stopped s (enterStopped s) := by
  unfold enterStopped
  dsimp only [Stopped]
  cases h : s.sched.commit with
  | none => simp [State.setSched]
  | pending => rfl

theorem closeSlot_eq (s : State) : closeSlot s = slotClosed s := rfl

/-- A slot end is one of four happenings, by the scheduler's state, the slot's place and the written mode (R44, R45,
R51). -/
theorem endSlot_cases (s : State) :
    (s.sched.state = .draining ∧ Stopped (slotClosed s) (endSlot s)) ∨
      (s.sched.state ≠ .draining ∧ s.sched.slot.val + 1 < s.active.frameLen ∧
        SlotStarted (slotClosed s) (endSlot s) (s.sched.slot + 1)) ∨
      (s.sched.state ≠ .draining ∧ s.active.frameLen ≤ s.sched.slot.val + 1 ∧ s.settings.syncMode = .internal ∧
        FrameStarted ((slotClosed s).setSched { s.sched with syncInForce := .internal }) (endSlot s)) ∨
      (s.sched.state ≠ .draining ∧ s.active.frameLen ≤ s.sched.slot.val + 1 ∧ s.settings.syncMode = .external ∧
        InGap (slotClosed s) (endSlot s) .external) := by
  have hnext : s.sched.state ≠ .draining →
      endSlot s =
        if s.sched.slot.val + 1 < s.active.frameLen then startSlot (s.sched.slot + 1) (slotClosed s)
        else frameEnd (slotClosed s) := by
    intro h
    unfold endSlot
    rw [closeSlot_eq]
    cases hs : s.sched.state with
    | draining => exact absurd hs h
    | stopped => rfl
    | running => rfl
    | gap => rfl
  by_cases hd : s.sched.state = .draining
  · left
    refine ⟨hd, ?_⟩
    have : endSlot s = enterStopped (slotClosed s) := by
      unfold endSlot
      rw [closeSlot_eq, hd]
    rw [this]
    exact enterStopped_spec _
  · rw [hnext hd]
    split
    · next hl => exact .inr (.inl ⟨hd, hl, startSlot_spec _ _⟩)
    · next hl =>
      have hle := Nat.le_of_not_lt hl
      cases hm : s.settings.syncMode with
      | internal =>
        refine .inr (.inr (.inl ⟨hd, hle, rfl, ?_⟩))
        have : frameEnd (slotClosed s) =
            frameStart ((slotClosed s).setSched { s.sched with syncInForce := .internal }) := by
          have hm' : (slotClosed s).settings.syncMode = .internal := hm
          unfold frameEnd
          rw [hm']
          rfl
        rw [this]
        exact frameStart_spec _
      | external =>
        refine .inr (.inr (.inr ⟨hd, hle, rfl, ?_⟩))
        have hm' : (slotClosed s).settings.syncMode = .external := hm
        unfold frameEnd
        rw [hm']
        rfl

end Sys2Proof.Machine
end

