-- ==== Sys2Proof/Laws/Path.lean ====
section
/-! SUPPORT. What the operations of the memory path do: the issue of a beat, a beat time, responses and the wedge (spec/02,
spec/06, spec/08). -/

namespace Sys2Proof.Machine

open Sys2Proof.Safety

/-! ### Only the loss record -/

/-- Between x and y only the loss record differs. -/
abbrev OnlyLoss (x y : PortRec) : Prop := y = { x with lastLoss := y.lastLoss, lossCount := y.lossCount }

theorem OnlyLoss.refl (x : PortRec) : OnlyLoss x x := rfl

theorem OnlyLoss.trans {x y z : PortRec} (h : OnlyLoss x y) (g : OnlyLoss y z) : OnlyLoss x z := by
  unfold OnlyLoss at *
  rw [g, h]

theorem onlyLoss_recordLoss (c : LossCause) (n : Nat) (x : PortRec) : OnlyLoss x (recordLoss c n x) := by
  unfold OnlyLoss
  rw [recordLoss_eq]

theorem onlyLoss_closeWhere (f : Link → Bool) (c : LossCause) (s : State) (p : Port) :
    OnlyLoss (s.port p) ((closeWhere f c s).port p) := by
  rw [closeWhere_port]
  exact onlyLoss_recordLoss _ _ _

theorem onlyLoss_replaceStep (p : Port) (s : State) (q : Port) : OnlyLoss (s.port q) ((replaceStep p s).port q) := by
  rcases replaceStep_cases p s with h | ⟨_, l, _, _, h⟩
  · rw [h]
  · rw [h]
    exact onlyLoss_closeWhere _ _ _ _

theorem onlyLoss_evictStep (s : State) (q : Port) : OnlyLoss (s.port q) ((evictStep s).port q) := by
  rcases evictStep_cases s with h | ⟨_, l, _, h⟩
  · rw [h]
  · rw [h]
    exact onlyLoss_closeWhere _ _ _ _

/-- A beat at the link monitor touches nothing of a port but its loss record (R64, R74). -/
theorem onlyLoss_presentBeat (p : Port) (kind : BeatKind) (a : Word) (bytes serial : Nat) (s : State) (q : Port) :
    OnlyLoss (s.port q) ((presentBeat p kind a bytes serial s).port q) := by
  cases kind with
  | read => rfl
  | atomicRead => rfl
  | linkedRead =>
    change OnlyLoss _ ((openLink p a bytes serial s).port q)
    unfold openLink
    dsimp only
    split
    · rfl
    · exact (onlyLoss_replaceStep p s q).trans (onlyLoss_evictStep _ q)
  | conditionalWrite => exact onlyLoss_closeWhere _ _ _ _
  | write => exact (onlyLoss_closeWhere _ _ _ _).trans (onlyLoss_closeWhere _ _ _ _)
  | atomicWrite => exact (onlyLoss_closeWhere _ _ _ _).trans (onlyLoss_closeWhere _ _ _ _)

/-! ### The issue of a beat -/

/-- The issue of a beat (R27, R134, R135): the outstanding list, the beat driven, the identity, links and ports. -/
theorem issueBeat_frame (p : Port) (entry index : Nat) (kind : BeatKind) (a : Word) (bytes : Nat) (value : Option Elem)
    (s : State) :
    issueBeat p entry index kind a bytes value s =
      { s with
        mem :=
          { s.mem with
            outstanding :=
              s.mem.outstanding ++
                [{ port := p, entry := entry, index := index, kind := kind, addr := a, deadline := deadlineAtIssue s,
                   serial := s.nextId }] }
        memBeat := some { write := value.isSome, addr := a, bytes := bytes, element := value }
        nextId := s.nextId + 1
        links := (issueBeat p entry index kind a bytes value s).links
        ports := (issueBeat p entry index kind a bytes value s).ports } := by
  unfold issueBeat
  dsimp only
  rw [presentBeat_frame]
  rfl

/-- At a port it touches GRANTED, the frame watch and the STARVED episode of the beat's port, and loss records. -/
theorem issueBeat_port (p : Port) (entry index : Nat) (kind : BeatKind) (a : Word) (bytes : Nat) (value : Option Elem)
    (s : State) (q : Port) :
    OnlyLoss
      (if q = p then { s.port p with watching := false, starved := false, granted := (s.port p).granted + 1 }
        else s.port q)
      ((issueBeat p entry index kind a bytes value s).port q) := by
  unfold issueBeat
  dsimp only
  refine OnlyLoss.trans ?_ (onlyLoss_presentBeat ..)
  rw [port_modPort]
  split
  · rfl
  · rfl

/-! ### One issue decision -/

/-- Between s and t only what an issue decision can reach differs. -/
abbrev IssueFrame (s t : State) : Prop :=
  t =
      { s with
        ports := t.ports
        links := t.links
        atomic := t.atomic
        mem := { s.mem with outstanding := t.mem.outstanding }
        memBeat := t.memBeat
        counters := { s.counters with overhangCount := t.counters.overhangCount }
        nextId := t.nextId } ∧
    ∀ q : Port,
      t.port q =
        { s.port q with
          queue := (t.port q).queue, watching := (t.port q).watching, starved := (t.port q).starved,
          granted := (t.port q).granted, condOk := (t.port q).condOk, condFail := (t.port q).condFail,
          lastLoss := (t.port q).lastLoss, lossCount := (t.port q).lossCount }

theorem IssueFrame.refl (s : State) : IssueFrame s s := ⟨rfl, fun _ => rfl⟩

theorem IssueFrame.trans {s t u : State} (h : IssueFrame s t) (g : IssueFrame t u) : IssueFrame s u := by
  refine ⟨?_, fun q => ?_⟩
  · rw [g.1, h.1]
  · rw [g.2 q, h.2 q]

theorem issueFrame_issueBeat (p : Port) (entry index : Nat) (kind : BeatKind) (a : Word) (bytes : Nat)
    (value : Option Elem) (s : State) : IssueFrame s (issueBeat p entry index kind a bytes value s) := by
  refine ⟨?_, fun q => ?_⟩
  · rw [issueBeat_frame]
  · have h := issueBeat_port p entry index kind a bytes value s q
    rw [h]
    split
    · next hq =>
      subst hq
      rfl
    · rfl

theorem issueFrame_modEntry (p : Port) (id : Nat) (f : Entry → Entry) (s : State) :
    IssueFrame s (s.modPort p (modEntry id f)) := by
  refine ⟨rfl, fun q => ?_⟩
  rw [port_modPort]
  split
  · next hq =>
    subst hq
    rfl
  · rfl

theorem issueFrame_takeDrops (p : Port) (s : State) : IssueFrame s (takeDrops p s) := by
  refine ⟨?_, fun q => ?_⟩
  · rw [takeDrops_frame]
  · rw [takeDrops_port]
    split
    · next hq =>
      subst hq
      rw [recordLoss_eq]
    · rfl

theorem issueFrame_closeWhere (f : Link → Bool) (c : LossCause) (s : State) : IssueFrame s (closeWhere f c s) := by
  refine ⟨rfl, fun q => ?_⟩
  rw [closeWhere_port, recordLoss_eq]

theorem issueFrame_setLinks (l : List Link) (s : State) : IssueFrame s (s.setLinks l) := ⟨rfl, fun _ => rfl⟩

theorem issueFrame_setAtomic (a : Option AtomicRecord) (s : State) : IssueFrame s (s.setAtomic a) := ⟨rfl, fun _ => rfl⟩

theorem issueFrame_overhang (n : Word) (s : State) :
    IssueFrame s (s.setCounters { s.counters with overhangCount := n }) := ⟨rfl, fun _ => rfl⟩

theorem issueFrame_placeBurst (p : Port) (e : Entry) (s : State) : IssueFrame s (placeBurst p e s) :=
  ((issueFrame_issueBeat ..).trans (issueFrame_modEntry ..)).trans (issueFrame_takeDrops ..)

theorem issueFrame_placeLinkedRead (p : Port) (e : Entry) (s : State) : IssueFrame s (placeLinkedRead p e s) :=
  ((issueFrame_issueBeat ..).trans (issueFrame_modEntry ..)).trans (issueFrame_takeDrops ..)

theorem issueFrame_placeAtomicRead (p : Port) (e : Entry) (s : State) : IssueFrame s (placeAtomicRead p e s) :=
  ((issueFrame_issueBeat ..).trans (issueFrame_modEntry ..)).trans (issueFrame_setAtomic ..)

theorem issueFrame_condOk (p : Port) (s : State) :
    IssueFrame s (s.modPort p fun x => { x with condOk := x.condOk + 1 }) := by
  refine ⟨rfl, fun q => ?_⟩
  rw [port_modPort]
  split
  · next hq =>
    subst hq
    rfl
  · rfl

theorem issueFrame_judgeSuccess (p : Port) (e : Entry) (s : State) : IssueFrame s (judgeSuccess p e s) :=
  ((((issueFrame_setLinks ..).trans (issueFrame_condOk ..)).trans (issueFrame_issueBeat ..)).trans
    (issueFrame_modEntry ..)).trans (issueFrame_takeDrops ..)

theorem issueFrame_judgeFailure (p : Port) (e : Entry) (v : Verdict) (s : State) :
    IssueFrame s (judgeFailure p e v s) := by
  refine IssueFrame.trans ⟨rfl, fun q => ?_⟩ (issueFrame_takeDrops ..)
  rw [port_modPort]
  split
  · next hq =>
    subst hq
    rfl
  · rfl

/-- A judgement is a success with its write beat, or a failure without one (R85 to R88). -/
theorem judge_cases (p : Port) (e : Entry) (s : State) :
    (∃ l, linkOn s p (granuleBase s.settings.granule e.req.addr) = some l ∧ l.width = e.req.bytes ∧
        judge p e s = (judgeSuccess p e s, true)) ∨
      (∃ l, linkOn s p (granuleBase s.settings.granule e.req.addr) = some l ∧ l.width ≠ e.req.bytes ∧
        judge p e s =
          (judgeFailure p e .width
              (closeWhere (fun x => x.holder == p && x.base == granuleBase s.settings.granule e.req.addr) .width s),
            false)) ∨
      (linkOn s p (granuleBase s.settings.granule e.req.addr) = none ∧
        judge p e s = (judgeFailure p e .noLink s, false)) := by
  unfold judge
  dsimp only
  split
  · next l hl =>
    split
    · next hw => exact .inl ⟨l, hl, hw, rfl⟩
    · next hw => exact .inr (.inl ⟨l, hl, hw, rfl⟩)
  · next hl => exact .inr (.inr ⟨hl, rfl⟩)

theorem issueFrame_judge (p : Port) (e : Entry) (s : State) : IssueFrame s (judge p e s).1 := by
  rcases judge_cases p e s with ⟨l, _, _, h⟩ | ⟨l, _, _, h⟩ | ⟨_, h⟩
  · rw [h]
    exact issueFrame_judgeSuccess ..
  · rw [h]
    exact (issueFrame_closeWhere ..).trans (issueFrame_judgeFailure ..)
  · rw [h]
    exact issueFrame_judgeFailure ..

/-- What an issue decision of a port does with its head (R27, R29, R30): nothing, its beat, or a failed judgement after
which the next entry is considered. -/
theorem tryIssue_succ (fuel : Nat) (p : Port) (s : State) :
    tryIssue (fuel + 1) p s = (s, none) ∨
      ∃ e, issueHead (s.port p) = some e ∧ pathFree s = true ∧
        (((e.req.kind = .read ∨ e.req.kind = .write) ∧
            (s.settings.splits p = true ∨ e.remaining ≤ s.sched.budget) ∧
            tryIssue (fuel + 1) p s = (placeBurst p e s, some p)) ∨
          (e.req.kind = .linkedRead ∧ tryIssue (fuel + 1) p s = (placeLinkedRead p e s, some p)) ∨
          (e.req.kind = .conditionalWrite ∧ (judge p e s).2 = true ∧
            tryIssue (fuel + 1) p s = ((judge p e s).1, some p)) ∨
          (e.req.kind = .conditionalWrite ∧ (judge p e s).2 = false ∧
            tryIssue (fuel + 1) p s = tryIssue fuel p (judge p e s).1) ∨
          ((e.req.kind = .swap ∨ e.req.kind = .boundedAdd) ∧ 2 ≤ s.sched.budget ∧
            tryIssue (fuel + 1) p s = (placeAtomicRead p e s, some p))) := by
  rw [tryIssue.eq_2]
  split
  · exact .inl rfl
  · next e he =>
    split
    · exact .inl rfl
    · next hp =>
      have hp' : pathFree s = true := by simpa using hp
      cases hk : e.req.kind with
      | read =>
        dsimp only
        split
        · next hc => exact .inr ⟨e, he, hp', .inl ⟨.inl hk, by simpa using hc, rfl⟩⟩
        · exact .inl rfl
      | write =>
        dsimp only
        split
        · next hc => exact .inr ⟨e, he, hp', .inl ⟨.inr hk, by simpa using hc, rfl⟩⟩
        · exact .inl rfl
      | linkedRead => exact .inr ⟨e, he, hp', .inr (.inl ⟨hk, rfl⟩)⟩
      | conditionalWrite =>
        right
        refine ⟨e, he, hp', ?_⟩
        dsimp only
        cases hj : judge p e s with
        | mk s1 b =>
          cases b with
          | true => exact .inr (.inr (.inl ⟨hk, rfl, rfl⟩))
          | false => exact .inr (.inr (.inr (.inl ⟨hk, rfl, rfl⟩)))
      | swap =>
        dsimp only
        split
        · next hc => exact .inr ⟨e, he, hp', .inr (.inr (.inr (.inr ⟨.inl hk, hc, rfl⟩)))⟩
        · exact .inl rfl
      | boundedAdd =>
        dsimp only
        split
        · next hc => exact .inr ⟨e, he, hp', .inr (.inr (.inr (.inr ⟨.inr hk, hc, rfl⟩)))⟩
        · exact .inl rfl
      | linkDrop => exact .inl rfl

theorem issueFrame_tryIssue (fuel : Nat) (p : Port) (s : State) : IssueFrame s (tryIssue fuel p s).1 := by
  induction fuel generalizing s with
  | zero => exact IssueFrame.refl s
  | succ fuel ih =>
    rcases tryIssue_succ fuel p s with h | ⟨e, _, _, h⟩
    · rw [h]
      exact IssueFrame.refl s
    · rcases h with ⟨_, _, h⟩ | ⟨_, h⟩ | ⟨_, _, h⟩ | ⟨_, _, h⟩ | ⟨_, _, h⟩
      · rw [h]
        exact issueFrame_placeBurst ..
      · rw [h]
        exact issueFrame_placeLinkedRead ..
      · rw [h]
        exact issueFrame_judge ..
      · rw [h]
        exact (issueFrame_judge ..).trans (ih _)
      · rw [h]
        exact issueFrame_placeAtomicRead ..

theorem issueFrame_issueAtomicWrite (s : State) : IssueFrame s (issueAtomicWrite s).1 := by
  unfold issueAtomicWrite
  split
  · exact IssueFrame.refl s
  · split
    · exact IssueFrame.refl s
    · dsimp only
      refine IssueFrame.trans (IssueFrame.trans (IssueFrame.trans (IssueFrame.trans (issueFrame_setAtomic none s)
        (issueFrame_overhang _ _)) (issueFrame_issueBeat ..)) (issueFrame_modEntry ..)) (issueFrame_takeDrops ..)

theorem issueFrame_decideIssue (s : State) : IssueFrame s (decideIssue s).1 := by
  unfold decideIssue
  split
  · exact issueFrame_issueAtomicWrite s
  · split
    · exact issueFrame_tryIssue ..
    · exact IssueFrame.refl s

/-! ### A beat time -/

/-- What counts at the end of a beat time (R26, R37, R48). -/
theorem endBeat_spec (issued : Option Port) (s : State) :
    (∀ q : Port,
        (endBeat issued s).port q =
          if granteeIssued s issued = false ∧ chargedPort s.sched.record = some q then
            { s.port q with slack := (s.port q).slack + 1 }
          else s.port q) ∧
      endBeat issued s =
        { s with
          sched :=
            { s.sched with
              budget := if s.sched.record.isSome then s.sched.budget - 1 else s.sched.budget
              timer :=
                if s.sched.record = none ∧ s.sched.state = .gap then s.sched.timer.map (· - 1) else s.sched.timer }
          ports := (endBeat issued s).ports
          counters :=
            { s.counters with
              poolSlack :=
                if granteeIssued s issued = false ∧ chargedPool s.sched.record = true then s.counters.poolSlack + 1
                else s.counters.poolSlack } } := by
  unfold endBeat
  cases hr : s.sched.record with
  | none =>
    dsimp only
    split
    · next hg =>
      refine ⟨fun q => by simp [chargedPort], ?_⟩
      apply state_eq <;> first | rfl | simp [chargedPool, hg, hr]
    · next hg =>
      refine ⟨fun q => by simp [chargedPort], ?_⟩
      apply state_eq <;> first | rfl | simp [chargedPool, hg]
  | some r =>
    dsimp only
    cases hi : granteeIssued s issued with
    | true =>
      refine ⟨fun q => by simp, ?_⟩
      rfl
    | false =>
      cases r with
      | owned o n d =>
        refine ⟨fun q => ?_, ?_⟩
        · by_cases hq : q = o
          · subst hq
            simp [chargeSlack, chargedPort]
          · have : ¬o = q := fun e => hq e.symm
            simp [chargeSlack, chargedPort, hq, this]
        · rfl
      | pool n =>
        refine ⟨fun q => by simp [chargeSlack, chargedPort], ?_⟩
        rfl
      | quiet n =>
        refine ⟨fun q => by simp [chargeSlack, chargedPort], ?_⟩
        rfl

/-- Only what a beat time can reach differs after it. -/
theorem beatTime_frame (s : State) : BeatFrame s (beatTime s) := by
  have hd := issueFrame_decideIssue (ageDeadlines (s.setMemBeat none))
  have he := endBeat_spec (decideIssue (ageDeadlines (s.setMemBeat none))).2
    (decideIssue (ageDeadlines (s.setMemBeat none))).1
  have hb : beatTime s =
      endBeat (decideIssue (ageDeadlines (s.setMemBeat none))).2 (decideIssue (ageDeadlines (s.setMemBeat none))).1 :=
    rfl
  rw [hb]
  set u := (decideIssue (ageDeadlines (s.setMemBeat none))).1
  set t := endBeat (decideIssue (ageDeadlines (s.setMemBeat none))).2 u
  clear_value t u
  obtain ⟨h1, h2⟩ := hd
  obtain ⟨g1, g2⟩ := he
  refine ⟨?_, fun q => ?_⟩
  · apply state_eq <;> first | rfl | (rw [g2, h1]; rfl)
  · have h := g1 q
    rw [h2 q] at h
    rw [h]
    split
    · rfl
    · rfl

end Sys2Proof.Machine
end

