-- ==== Sys2Proof/Laws/Ports.lean ====
section
/-! SUPPORT. What acceptance, delivery and port reset do (spec/07). -/

namespace Sys2Proof.Machine

open Sys2Proof.Safety

/-! ### Acceptance -/

/-- A port that takes a request does all of R118, R120, R121 and R93, and nothing else. -/
theorem takeRequest_spec (p : Port) (r : Request) (s : State) : Taken s (takeRequest p r s) p r := by
  have hc : (decide ((s.port p).state = .halting) || decide ((s.port p).state = .disabled)) =
      decide ((s.port p).state = .halting ∨ (s.port p).state = .disabled) := by
    cases (s.port p).state <;> rfl
  unfold takeRequest
  dsimp only [Taken]
  rw [hc]
  cases h : firstFailure r (memSize s.settings.memSizeCode)
      (decide ((s.port p).state = .halting ∨ (s.port p).state = .disabled)) with
  | none =>
    dsimp only
    refine ⟨fun q hq => ?_, ?_, ?_⟩
    · rw [takeDrops_port, if_neg hq]
      simp [hq]
    · rw [takeDrops_port, if_pos rfl, recordLoss_eq]
      simp [newEntry]
    · rw [takeDrops_frame]
      apply state_eq <;> first | rfl | simp [newEntry]
  | some why =>
    dsimp only
    by_cases hd : (s.port p).state = .disabled
    · rw [if_pos hd, if_pos hd]
      exact ⟨fun q hq => by simp [hq], by simp [refusedResponse, refusedWith], rfl⟩
    · rw [if_neg hd, if_neg hd]
      exact ⟨fun q hq => by simp [hq], by simp [newEntry], rfl⟩

/-- A port takes a request now outside reset, with a place free where it holds requests (R120, R124). -/
theorem canTake_iff (s : State) (p : Port) :
    canTake s p = true ↔
      s.resetAsserted = false ∧
        ((s.port p).state = .disabled ∨
          (((s.port p).state = .opened ∨ (s.port p).state = .halting) ∧ (s.port p).queue.length < 4)) := by
  unfold canTake Config.queueDepth
  cases s.resetAsserted <;> cases (s.port p).state <;> simp

/-- A presented request is ignored, taken, or withheld (R120). -/
theorem presentRequest_cases (p : Port) (r : Request) (s : State) :
    ((s.port p).presented ≠ none ∧ presentRequest p r s = s) ∨
      ((s.port p).presented = none ∧ canTake s p = true ∧ presentRequest p r s = takeRequest p r s) ∨
      ((s.port p).presented = none ∧ canTake s p = false ∧
        presentRequest p r s = s.setPort p { s.port p with presented := some r }) := by
  unfold presentRequest
  cases h : (s.port p).presented with
  | none =>
    cases hc : canTake s p
    · exact .inr (.inr ⟨rfl, rfl, rfl⟩)
    · exact .inr (.inl ⟨rfl, rfl, rfl⟩)
  | some r' => exact .inl ⟨by simp, rfl⟩

/-- A withheld request is taken when the port can take it, and otherwise stays (R120). -/
theorem takeWithheld_cases (p : Port) (s : State) :
    (∃ r, (s.port p).presented = some r ∧ canTake s p = true ∧
        takeWithheld p s = takeRequest p r (s.setPort p { s.port p with presented := none })) ∨
      (((s.port p).presented = none ∨ canTake s p = false) ∧ takeWithheld p s = s) := by
  unfold takeWithheld
  cases h : (s.port p).presented with
  | none => exact .inr ⟨.inl rfl, rfl⟩
  | some r =>
    cases hc : canTake s p
    · exact .inr ⟨.inr rfl, rfl⟩
    · exact .inl ⟨r, rfl, rfl, rfl⟩

/-! ### Delivery -/

/-- A delivery frees the oldest entry; a HALTING port that it empties becomes DISABLED and loses its links (R122, R125,
R131). -/
theorem deliver_cases (p : Port) (s : State) :
    (deliverable s p = none ∧ deliver p s = s) ∨
      ∃ e rest r, s.resetAsserted = false ∧ (s.port p).state ≠ .resetting ∧ (s.port p).queue = e :: rest ∧
        e.response = some r ∧
        deliver p s =
          if rest = [] ∧ (s.port p).state = .halting then
            purgePort p
              (s.setPort p
                { s.port p with queue := [], lastResponse := some r, starved := false, state := .disabled })
          else
            s.setPort p
              { s.port p with
                queue := rest, lastResponse := some r,
                starved := if rest = [] then false else (s.port p).starved } := by
  cases hd : deliverable s p with
  | none =>
    left
    unfold deliver
    rw [hd]
    exact ⟨rfl, rfl⟩
  | some r =>
    right
    unfold deliver
    rw [hd]
    unfold deliverable at hd
    split at hd
    · cases hd
    · next hn =>
      rw [not_or] at hn
      split at hd
      · cases hd
      · next e rest hq =>
        refine ⟨e, rest, r, by simpa using hn.1, hn.2, hq, hd, ?_⟩
        dsimp only
        have hw : (s.modPort p fun x => whenEmptied { x with queue := x.queue.tail, lastResponse := some r }) =
            s.setPort p (whenEmptied { s.port p with queue := rest, lastResponse := some r }) := by
          rw [modPort_eq, hq]
          rfl
        rw [hw, port_setPort_self]
        unfold whenEmptied
        cases rest with
        | cons f fs =>
          simp only [reduceCtorEq, if_false, false_and]
          rw [if_neg (fun h => h.2 h.1)]
        | nil =>
          simp only [if_true, true_and]
          cases hs : (s.port p).state <;> simp [hs] at hn ⊢

/-! ### Port reset -/

/-- What the start of a port reset keeps of an entry (R127). -/
theorem resetEntry_eq (s : State) (e : Entry) :
    resetEntry s e = if keptAtReset s e then some { e with marked := true } else none := by
  have ha : inAtomicRecord s e.id = s.atomic.any fun a => a.entry == e.id := by
    unfold inAtomicRecord
    cases s.atomic <;> rfl
  unfold resetEntry keptAtReset beatOutstanding
  rw [ha]
  cases e.state <;> simp

theorem filterMap_resetEntry (s : State) (q : List Entry) :
    q.filterMap (resetEntry s) = (q.filter (keptAtReset s)).map fun e => { e with marked := true } := by
  induction q with
  | nil => rfl
  | cons e rest ih =>
    rw [List.filterMap_cons, resetEntry_eq, List.filter_cons]
    cases keptAtReset s e <;> simp [ih]

/-- The start of a port reset says all of R127. -/
theorem startReset_spec (p : Port) (s : State) (h : (s.port p).state ≠ .resetting) :
    ResetStarted s (startReset p s) p := by
  unfold startReset
  rw [if_neg h]
  dsimp only [ResetStarted]
  refine ⟨?_, fun q hq => ?_, rfl⟩
  · rw [port_modPort_self, purgePort_port, if_pos rfl, recordLoss_eq, filterMap_resetEntry]
  · rw [port_modPort_ne _ _ hq, purgePort_port, if_neg hq, recordLoss_zero]

theorem startReset_resetting (p : Port) (s : State) (h : (s.port p).state = .resetting) : startReset p s = s := by
  unfold startReset
  rw [if_pos h]

/-- The three conditions of R128. -/
theorem resetDrained_iff (s : State) (p : Port) :
    resetDrained s p = true ↔
      (s.port p).state = .resetting ∧ (s.port p).prst = false ∧ (∀ b ∈ s.mem.outstanding, b.port ≠ p) ∧
        s.atomic.any (fun a => a.port == p) = false := by
  unfold resetDrained
  cases s.atomic <;> simp [and_assoc]

/-- The end of a port reset (R128). -/
theorem endReset_cases (p : Port) (s : State) :
    (s.resetAsserted = false ∧ resetDrained s p = true ∧
        endReset p s =
          raise (.portReady p)
            (s.setPort p { s.port p with state := if (s.port p).enabled then .opened else .disabled, queue := [] })) ∨
      ((s.resetAsserted = true ∨ resetDrained s p = false) ∧ endReset p s = s) := by
  unfold endReset
  cases h1 : s.resetAsserted <;> cases h2 : resetDrained s p
  · exact .inr ⟨.inr rfl, rfl⟩
  · exact .inl ⟨rfl, rfl, rfl⟩
  · exact .inr ⟨.inl rfl, rfl⟩
  · exact .inr ⟨.inl rfl, rfl⟩

end Sys2Proof.Machine
end

