-- ==== Sys2Proof/Laws/Responses.lean ====
section
/-! SUPPORT. What a response of the memory controller and a wedge do (R136 to R141). -/

namespace Sys2Proof.Machine

open Sys2Proof.Safety

/-! ### The parts of a matched response -/

/-- A completed entry changes its port's queue alone (R136). -/
theorem completeEntry_port (p : Port) (id : Nat) (s : State) (q : Port) :
    (completeEntry p id s).port q =
      if q = p ∧ beatOutstanding s id = false ∧ inAtomicRecord s id = false then
        { s.port p with
          queue := (s.port p).queue.filterMap fun e =>
            if e.id ≠ id then some e
            else if e.marked then none
            else if e.state = .issued then some { e with state := .ready (outcomeOf e) }
            else some e }
      else s.port q := by
  unfold completeEntry
  cases h1 : beatOutstanding s id <;> cases h2 : inAtomicRecord s id <;> simp [port_modPort]

theorem completeEntry_frame (p : Port) (id : Nat) (s : State) :
    completeEntry p id s = { s with ports := (completeEntry p id s).ports } := by
  unfold completeEntry
  split <;> rfl

section
variable (p : Port) (id : Nat) (s : State)

@[simp] theorem completeEntry_pending : (completeEntry p id s).pending = s.pending := by rw [completeEntry_frame]
@[simp] theorem completeEntry_resetAsserted : (completeEntry p id s).resetAsserted = s.resetAsserted := by rw [completeEntry_frame]
@[simp] theorem completeEntry_active : (completeEntry p id s).active = s.active := by rw [completeEntry_frame]
@[simp] theorem completeEntry_shadow : (completeEntry p id s).shadow = s.shadow := by rw [completeEntry_frame]
@[simp] theorem completeEntry_sched : (completeEntry p id s).sched = s.sched := by rw [completeEntry_frame]
@[simp] theorem completeEntry_links : (completeEntry p id s).links = s.links := by rw [completeEntry_frame]
@[simp] theorem completeEntry_atomic : (completeEntry p id s).atomic = s.atomic := by rw [completeEntry_frame]
@[simp] theorem completeEntry_mem : (completeEntry p id s).mem = s.mem := by rw [completeEntry_frame]
@[simp] theorem completeEntry_memBeat : (completeEntry p id s).memBeat = s.memBeat := by rw [completeEntry_frame]
@[simp] theorem completeEntry_notices : (completeEntry p id s).notices = s.notices := by rw [completeEntry_frame]
@[simp] theorem completeEntry_counters : (completeEntry p id s).counters = s.counters := by rw [completeEntry_frame]
@[simp] theorem completeEntry_frameMarks : (completeEntry p id s).frameMarks = s.frameMarks := by rw [completeEntry_frame]
@[simp] theorem completeEntry_settings : (completeEntry p id s).settings = s.settings := by rw [completeEntry_frame]
@[simp] theorem completeEntry_mgmt : (completeEntry p id s).mgmt = s.mgmt := by rw [completeEntry_frame]
@[simp] theorem completeEntry_nextId : (completeEntry p id s).nextId = s.nextId := by rw [completeEntry_frame]
@[simp] theorem completeEntry_freeCount : (completeEntry p id s).freeCount = s.freeCount := by rw [completeEntry_frame]

end

/-- A MEMERR touches the first bad beat of its entry and the notice queue, and only if it is the entry's first (R136,
R137). -/
theorem noteMemerr_cases (b : BeatRecord) (s : State) :
    (firstMemerr s b = true ∧
        noteMemerr b s =
          raise (.memFault b.port b.addr)
            (s.modPort b.port (modEntry b.entry fun e => { e with firstBad := some b.index }))) ∨
      (firstMemerr s b = false ∧ noteMemerr b s = s) := by
  unfold noteMemerr
  cases firstMemerr s b
  · exact .inr ⟨rfl, rfl⟩
  · exact .inl ⟨rfl, rfl⟩

theorem noteMemerr_frame (b : BeatRecord) (s : State) :
    noteMemerr b s = { s with ports := (noteMemerr b s).ports, notices := (noteMemerr b s).notices } := by
  rcases noteMemerr_cases b s with ⟨_, h⟩ | ⟨_, h⟩
  · rw [h]
    rfl
  · rw [h]

section
variable (b : BeatRecord) (x : Elem) (s : State)

@[simp] theorem storeElement_pending : (storeElement b x s).pending = s.pending := rfl
@[simp] theorem storeElement_resetAsserted : (storeElement b x s).resetAsserted = s.resetAsserted := rfl
@[simp] theorem storeElement_active : (storeElement b x s).active = s.active := rfl
@[simp] theorem storeElement_shadow : (storeElement b x s).shadow = s.shadow := rfl
@[simp] theorem storeElement_sched : (storeElement b x s).sched = s.sched := rfl
@[simp] theorem storeElement_links : (storeElement b x s).links = s.links := rfl
@[simp] theorem storeElement_atomic : (storeElement b x s).atomic = s.atomic := rfl
@[simp] theorem storeElement_mem : (storeElement b x s).mem = s.mem := rfl
@[simp] theorem storeElement_memBeat : (storeElement b x s).memBeat = s.memBeat := rfl
@[simp] theorem storeElement_notices : (storeElement b x s).notices = s.notices := rfl
@[simp] theorem storeElement_counters : (storeElement b x s).counters = s.counters := rfl
@[simp] theorem storeElement_frameMarks : (storeElement b x s).frameMarks = s.frameMarks := rfl
@[simp] theorem storeElement_settings : (storeElement b x s).settings = s.settings := rfl
@[simp] theorem storeElement_mgmt : (storeElement b x s).mgmt = s.mgmt := rfl
@[simp] theorem storeElement_nextId : (storeElement b x s).nextId = s.nextId := rfl
@[simp] theorem storeElement_freeCount : (storeElement b x s).freeCount = s.freeCount := rfl

end
section
variable (b : BeatRecord) (s : State)

@[simp] theorem faultedClose_pending : (faultedClose b s).pending = s.pending := rfl
@[simp] theorem faultedClose_resetAsserted : (faultedClose b s).resetAsserted = s.resetAsserted := rfl
@[simp] theorem faultedClose_active : (faultedClose b s).active = s.active := rfl
@[simp] theorem faultedClose_shadow : (faultedClose b s).shadow = s.shadow := rfl
@[simp] theorem faultedClose_sched : (faultedClose b s).sched = s.sched := rfl
@[simp] theorem faultedClose_atomic : (faultedClose b s).atomic = s.atomic := rfl
@[simp] theorem faultedClose_mem : (faultedClose b s).mem = s.mem := rfl
@[simp] theorem faultedClose_memBeat : (faultedClose b s).memBeat = s.memBeat := rfl
@[simp] theorem faultedClose_notices : (faultedClose b s).notices = s.notices := rfl
@[simp] theorem faultedClose_counters : (faultedClose b s).counters = s.counters := rfl
@[simp] theorem faultedClose_frameMarks : (faultedClose b s).frameMarks = s.frameMarks := rfl
@[simp] theorem faultedClose_settings : (faultedClose b s).settings = s.settings := rfl
@[simp] theorem faultedClose_mgmt : (faultedClose b s).mgmt = s.mgmt := rfl
@[simp] theorem faultedClose_nextId : (faultedClose b s).nextId = s.nextId := rfl
@[simp] theorem faultedClose_freeCount : (faultedClose b s).freeCount = s.freeCount := rfl

end

/-- A response matched to a beat that is no atomic read beat leaves the tables, the scheduler, the settings, the atomic
record, the counters and the management port as they are. -/
theorem handResponse_frame (b : BeatRecord) (status : MemStatus) (element : Elem) (s : State)
    (hk : b.kind ≠ .atomicRead) :
    handResponse b status element s =
      { s with
        ports := (handResponse b status element s).ports
        links := (handResponse b status element s).links
        notices := (handResponse b status element s).notices } := by
  have hn := noteMemerr_frame b s
  unfold handResponse
  split
  · next h => exact absurd h hk
  · next h => exact absurd h hk
  · rw [completeEntry_frame]
    rfl
  · rw [completeEntry_frame]
    unfold storeElement
    rw [hn]
    rfl
  · rw [completeEntry_frame]
    rfl
  · rw [completeEntry_frame]
    unfold storeElement faultedClose closeWhere
    rw [hn]
    rfl
  · rw [completeEntry_frame]
  · rw [completeEntry_frame, hn]

/-- The read data of an atomic update (R102 to R104, R107): the record in WRITE_OWED and the port's CLAMP_COUNT; nothing
else. -/
theorem atomicReadMatched_eq (element : Elem) (s : State) (a : AtomicRecord) (h : s.atomic = some a) :
    atomicReadMatched element s =
      (s.setAtomic
          (some
            { a with
              phase :=
                .writeOwed (element.setWidth 32) (atomicResult a.op (element.setWidth 32)).1
                  (atomicResult a.op (element.setWidth 32)).2 })).modPort a.port fun x =>
        { x with
          clampCount :=
            if (atomicResult a.op (element.setWidth 32)).2 = some true then satInc x.clampCount else x.clampCount } := by
  unfold atomicReadMatched
  rw [h]

/-- A response is matched to the oldest beat, owed, stray, or discarded while RESET_N is asserted (R133, R136, R138). -/
theorem takeResponse_cases (status : MemStatus) (element : Elem) (s : State) :
    (s.resetAsserted = true ∧ takeResponse status element s = s) ∨
      (s.resetAsserted = false ∧
        ((∃ b rest, s.mem.outstanding = b :: rest ∧
            takeResponse status element s =
              grantMaint (handResponse b status element (s.setMem { s.mem with outstanding := rest }))) ∨
          (s.mem.outstanding = [] ∧ 0 < s.mem.owed ∧
            takeResponse status element s = s.setMem { s.mem with owed := s.mem.owed - 1 }) ∨
          (s.mem.outstanding = [] ∧ s.mem.owed = 0 ∧
            takeResponse status element s =
              s.setCounters { s.counters with strayResponses := s.counters.strayResponses + 1 }))) := by
  unfold takeResponse
  split
  · next h => exact .inl ⟨h, rfl⟩
  · next h =>
    have h' : s.resetAsserted = false := by simpa using h
    refine .inr ⟨h', ?_⟩
    split
    · next b rest ho => exact .inl ⟨b, rest, ho, rfl⟩
    · next ho =>
      split
      · next hp => exact .inr (.inl ⟨ho, hp, rfl⟩)
      · next hp => exact .inr (.inr ⟨ho, by omega, rfl⟩)

/-! ### The wedge -/

/-- An entry at a wedge is that of R141. -/
theorem wedgeEntry_eq (e : Entry) : wedgeEntry e = wedgedEntry e := by
  unfold wedgeEntry wedgedEntry zeroFilled Request.count isBurst
  cases e.state <;> cases e.marked <;> cases e.req.kind <;> simp

/-- The wedge says all of R140 and R141: every port, and what else changes. -/
theorem takeWedge_spec (s : State) :
    (∀ p : Port, (takeWedge s).port p = wedgedPort s p) ∧
      WindowAfter
        { s with
          ports := (takeWedge s).ports
          links := []
          atomic := none
          mem :=
            { s.mem with
              state := .wedged, outstanding := [], owed := s.mem.outstanding.length, wedgedSinceMark := true }
          notices :=
            s.notices.raise s.settings.noticeMask (.wedged s.mem.outstanding.length) s.sched.frameNumber }
        (takeWedge s) := by
  have hw : wedgeEntry = wedgedEntry := funext wedgeEntry_eq
  have hall : ∀ p : Port, p ∈ Port.all := by decide
  unfold takeWedge
  dsimp only
  set u := raise (.wedged s.mem.outstanding.length)
    (purgeAll
      (((s.mapPorts fun _ x => { x with queue := x.queue.filterMap wedgeEntry, watching := false }).setAtomic
          none).setMem
        { s.mem with
          state := .wedged, outstanding := [], owed := s.mem.outstanding.length, wedgedSinceMark := true })) with hu
  have hlinks : u.links = [] := by
    rw [hu]
    simp
  have hport : ∀ p : Port,
      u.port p =
        recordLoss .purged (heldBy p s.links)
          { s.port p with queue := (s.port p).queue.filterMap wedgedEntry, watching := false } := by
    intro p
    rw [hu, raise_port, purgeAll_port]
    simp [hw]
  have hue : u =
      { s with
        ports := u.ports
        links := []
        atomic := none
        mem :=
          { s.mem with
            state := .wedged, outstanding := [], owed := s.mem.outstanding.length, wedgedSinceMark := true }
        notices :=
          s.notices.raise s.settings.noticeMask (.wedged s.mem.outstanding.length) s.sched.frameNumber } := by
    apply state_eq
    all_goals first | exact hlinks | rfl
  clear_value u
  obtain ⟨hp, hf⟩ := takeDropsOf_noLinks Port.all u hlinks
  set v := takeDropsOf Port.all u
  clear_value v
  constructor
  · intro p
    rw [grantMaint_port, hp p, if_pos (hall p), hport p, recordLoss_eq]
    rfl
  · have hg := grantMaint_spec v
    have he : v =
        { s with
          ports := (grantMaint v).ports
          links := []
          atomic := none
          mem :=
            { s.mem with
              state := .wedged, outstanding := [], owed := s.mem.outstanding.length, wedgedSinceMark := true }
          notices :=
            s.notices.raise s.settings.noticeMask (.wedged s.mem.outstanding.length) s.sched.frameNumber } := by
      rw [grantMaint_ports]
      apply state_eq <;> first | rfl | (rw [hf, hue])
    rw [← he]
    exact hg

end Sys2Proof.Machine
end

