-- ==== Sys2Proof/Laws/Frames.lean ====
section
/-! SUPPORT. For each shared operation, the parts of the state it can change, and one lemma for each part it cannot. -/

namespace Sys2Proof.Machine

open Sys2Proof.Safety

/-! ### startSlot -/

/-- A slot start (R5, R20, R26, R145). -/
theorem startSlot_frame (i : Fin 32) (s : State) :
    startSlot i s =
      { s with
          sched := (startSlot i s).sched, mem := (startSlot i s).mem, counters := (startSlot i s).counters } := by
  have h := startSlot_spec i s
  dsimp only [SlotStarted] at h
  rw [h.2.2]

section
variable (i : Fin 32) (s : State)

@[simp] theorem startSlot_pending : (startSlot i s).pending = s.pending := by rw [startSlot_frame]
@[simp] theorem startSlot_resetAsserted : (startSlot i s).resetAsserted = s.resetAsserted := by rw [startSlot_frame]
@[simp] theorem startSlot_active : (startSlot i s).active = s.active := by rw [startSlot_frame]
@[simp] theorem startSlot_shadow : (startSlot i s).shadow = s.shadow := by rw [startSlot_frame]
@[simp] theorem startSlot_ports : (startSlot i s).ports = s.ports := by rw [startSlot_frame]
@[simp] theorem startSlot_links : (startSlot i s).links = s.links := by rw [startSlot_frame]
@[simp] theorem startSlot_atomic : (startSlot i s).atomic = s.atomic := by rw [startSlot_frame]
@[simp] theorem startSlot_memBeat : (startSlot i s).memBeat = s.memBeat := by rw [startSlot_frame]
@[simp] theorem startSlot_notices : (startSlot i s).notices = s.notices := by rw [startSlot_frame]
@[simp] theorem startSlot_frameMarks : (startSlot i s).frameMarks = s.frameMarks := by rw [startSlot_frame]
@[simp] theorem startSlot_settings : (startSlot i s).settings = s.settings := by rw [startSlot_frame]
@[simp] theorem startSlot_mgmt : (startSlot i s).mgmt = s.mgmt := by rw [startSlot_frame]
@[simp] theorem startSlot_nextId : (startSlot i s).nextId = s.nextId := by rw [startSlot_frame]
@[simp] theorem startSlot_freeCount : (startSlot i s).freeCount = s.freeCount := by rw [startSlot_frame]
@[simp] theorem startSlot_port (r : Port) : (startSlot i s).port r = s.port r := by rw [startSlot_frame]; rfl

end

/-! ### frameMark -/

/-- A frame mark (R43). -/
theorem frameMark_frame (s : State) :
    frameMark s =
      { s with
          ports := (frameMark s).ports, links := (frameMark s).links, mem := (frameMark s).mem,
          notices := (frameMark s).notices, freeCount := (frameMark s).freeCount } := by
  rw [(frameMark_spec s).2.2.2]

section
variable (s : State)

@[simp] theorem frameMark_pending : (frameMark s).pending = s.pending := by rw [frameMark_frame]
@[simp] theorem frameMark_resetAsserted : (frameMark s).resetAsserted = s.resetAsserted := by rw [frameMark_frame]
@[simp] theorem frameMark_active : (frameMark s).active = s.active := by rw [frameMark_frame]
@[simp] theorem frameMark_shadow : (frameMark s).shadow = s.shadow := by rw [frameMark_frame]
@[simp] theorem frameMark_sched : (frameMark s).sched = s.sched := by rw [frameMark_frame]
@[simp] theorem frameMark_atomic : (frameMark s).atomic = s.atomic := by rw [frameMark_frame]
@[simp] theorem frameMark_memBeat : (frameMark s).memBeat = s.memBeat := by rw [frameMark_frame]
@[simp] theorem frameMark_counters : (frameMark s).counters = s.counters := by rw [frameMark_frame]
@[simp] theorem frameMark_frameMarks : (frameMark s).frameMarks = s.frameMarks := by rw [frameMark_frame]
@[simp] theorem frameMark_settings : (frameMark s).settings = s.settings := by rw [frameMark_frame]
@[simp] theorem frameMark_mgmt : (frameMark s).mgmt = s.mgmt := by rw [frameMark_frame]
@[simp] theorem frameMark_nextId : (frameMark s).nextId = s.nextId := by rw [frameMark_frame]

end

/-! ### frameStart -/

/-- A frame start (R42, R43). -/
theorem frameStart_frame (s : State) :
    frameStart s =
      { s with
          active := (frameStart s).active, sched := (frameStart s).sched, ports := (frameStart s).ports,
          links := (frameStart s).links, mem := (frameStart s).mem, notices := (frameStart s).notices,
          counters := (frameStart s).counters, frameMarks := (frameStart s).frameMarks,
          freeCount := (frameStart s).freeCount } := by
  have h := frameStart_spec s
  dsimp only [FrameStarted] at h
  rw [h.2.2.2.2.2.2]

section
variable (s : State)

@[simp] theorem frameStart_pending : (frameStart s).pending = s.pending := by rw [frameStart_frame]
@[simp] theorem frameStart_resetAsserted : (frameStart s).resetAsserted = s.resetAsserted := by rw [frameStart_frame]
@[simp] theorem frameStart_shadow : (frameStart s).shadow = s.shadow := by rw [frameStart_frame]
@[simp] theorem frameStart_atomic : (frameStart s).atomic = s.atomic := by rw [frameStart_frame]
@[simp] theorem frameStart_memBeat : (frameStart s).memBeat = s.memBeat := by rw [frameStart_frame]
@[simp] theorem frameStart_settings : (frameStart s).settings = s.settings := by rw [frameStart_frame]
@[simp] theorem frameStart_mgmt : (frameStart s).mgmt = s.mgmt := by rw [frameStart_frame]
@[simp] theorem frameStart_nextId : (frameStart s).nextId = s.nextId := by rw [frameStart_frame]

end

/-! ### enterGap -/

/-- GAP is entered (R45, R50). -/
theorem enterGap_frame (s : State) :
    enterGap s =
      { s with
          sched := (enterGap s).sched } := by
  rfl

section
variable (s : State)

@[simp] theorem enterGap_pending : (enterGap s).pending = s.pending := by rw [enterGap_frame]
@[simp] theorem enterGap_resetAsserted : (enterGap s).resetAsserted = s.resetAsserted := by rw [enterGap_frame]
@[simp] theorem enterGap_active : (enterGap s).active = s.active := by rw [enterGap_frame]
@[simp] theorem enterGap_shadow : (enterGap s).shadow = s.shadow := by rw [enterGap_frame]
@[simp] theorem enterGap_ports : (enterGap s).ports = s.ports := by rw [enterGap_frame]
@[simp] theorem enterGap_links : (enterGap s).links = s.links := by rw [enterGap_frame]
@[simp] theorem enterGap_atomic : (enterGap s).atomic = s.atomic := by rw [enterGap_frame]
@[simp] theorem enterGap_mem : (enterGap s).mem = s.mem := by rw [enterGap_frame]
@[simp] theorem enterGap_memBeat : (enterGap s).memBeat = s.memBeat := by rw [enterGap_frame]
@[simp] theorem enterGap_notices : (enterGap s).notices = s.notices := by rw [enterGap_frame]
@[simp] theorem enterGap_counters : (enterGap s).counters = s.counters := by rw [enterGap_frame]
@[simp] theorem enterGap_frameMarks : (enterGap s).frameMarks = s.frameMarks := by rw [enterGap_frame]
@[simp] theorem enterGap_settings : (enterGap s).settings = s.settings := by rw [enterGap_frame]
@[simp] theorem enterGap_mgmt : (enterGap s).mgmt = s.mgmt := by rw [enterGap_frame]
@[simp] theorem enterGap_nextId : (enterGap s).nextId = s.nextId := by rw [enterGap_frame]
@[simp] theorem enterGap_freeCount : (enterGap s).freeCount = s.freeCount := by rw [enterGap_frame]
@[simp] theorem enterGap_port (r : Port) : (enterGap s).port r = s.port r := by rw [enterGap_frame]; rfl

end

/-! ### enterStopped -/

/-- STOPPED is entered (R51). -/
theorem enterStopped_frame (s : State) :
    enterStopped s =
      { s with
          active := (enterStopped s).active, sched := (enterStopped s).sched,
          notices := (enterStopped s).notices } := by
  have h := enterStopped_spec s
  dsimp only [Stopped] at h
  rw [h]

section
variable (s : State)

@[simp] theorem enterStopped_pending : (enterStopped s).pending = s.pending := by rw [enterStopped_frame]
@[simp] theorem enterStopped_resetAsserted : (enterStopped s).resetAsserted = s.resetAsserted := by rw [enterStopped_frame]
@[simp] theorem enterStopped_shadow : (enterStopped s).shadow = s.shadow := by rw [enterStopped_frame]
@[simp] theorem enterStopped_ports : (enterStopped s).ports = s.ports := by rw [enterStopped_frame]
@[simp] theorem enterStopped_links : (enterStopped s).links = s.links := by rw [enterStopped_frame]
@[simp] theorem enterStopped_atomic : (enterStopped s).atomic = s.atomic := by rw [enterStopped_frame]
@[simp] theorem enterStopped_mem : (enterStopped s).mem = s.mem := by rw [enterStopped_frame]
@[simp] theorem enterStopped_memBeat : (enterStopped s).memBeat = s.memBeat := by rw [enterStopped_frame]
@[simp] theorem enterStopped_counters : (enterStopped s).counters = s.counters := by rw [enterStopped_frame]
@[simp] theorem enterStopped_frameMarks : (enterStopped s).frameMarks = s.frameMarks := by rw [enterStopped_frame]
@[simp] theorem enterStopped_settings : (enterStopped s).settings = s.settings := by rw [enterStopped_frame]
@[simp] theorem enterStopped_mgmt : (enterStopped s).mgmt = s.mgmt := by rw [enterStopped_frame]
@[simp] theorem enterStopped_nextId : (enterStopped s).nextId = s.nextId := by rw [enterStopped_frame]
@[simp] theorem enterStopped_freeCount : (enterStopped s).freeCount = s.freeCount := by rw [enterStopped_frame]
@[simp] theorem enterStopped_port (r : Port) : (enterStopped s).port r = s.port r := by rw [enterStopped_frame]; rfl

end

/-! ### endSlot -/

/-- A slot end with what follows it (R44, R45, R51). -/
theorem endSlot_frame (s : State) :
    endSlot s =
      { s with
          active := (endSlot s).active, sched := (endSlot s).sched, ports := (endSlot s).ports,
          links := (endSlot s).links, atomic := (endSlot s).atomic, mem := (endSlot s).mem,
          notices := (endSlot s).notices, counters := (endSlot s).counters, frameMarks := (endSlot s).frameMarks,
          freeCount := (endSlot s).freeCount } := by
  rcases endSlot_cases s with ⟨_, h⟩ | ⟨_, _, h⟩ | ⟨_, _, _, h⟩ | ⟨_, _, _, h⟩
  · rw [h]
    rfl
  · dsimp only [SlotStarted] at h
    rw [h.2.2]
    rfl
  · dsimp only [FrameStarted] at h
    rw [h.2.2.2.2.2.2]
    rfl
  · rw [h]
    rfl

section
variable (s : State)

@[simp] theorem endSlot_pending : (endSlot s).pending = s.pending := by rw [endSlot_frame]
@[simp] theorem endSlot_resetAsserted : (endSlot s).resetAsserted = s.resetAsserted := by rw [endSlot_frame]
@[simp] theorem endSlot_shadow : (endSlot s).shadow = s.shadow := by rw [endSlot_frame]
@[simp] theorem endSlot_memBeat : (endSlot s).memBeat = s.memBeat := by rw [endSlot_frame]
@[simp] theorem endSlot_settings : (endSlot s).settings = s.settings := by rw [endSlot_frame]
@[simp] theorem endSlot_mgmt : (endSlot s).mgmt = s.mgmt := by rw [endSlot_frame]
@[simp] theorem endSlot_nextId : (endSlot s).nextId = s.nextId := by rw [endSlot_frame]

end

/-! ### decideIssue -/

/-- An issue decision (R27, R107). -/
theorem decideIssue_frame (s : State) :
    (decideIssue s).1 =
      { s with
          ports := ((decideIssue s).1).ports, links := ((decideIssue s).1).links,
          atomic := ((decideIssue s).1).atomic, mem := ((decideIssue s).1).mem,
          memBeat := ((decideIssue s).1).memBeat, counters := ((decideIssue s).1).counters,
          nextId := ((decideIssue s).1).nextId } := by
  rw [(issueFrame_decideIssue s).1]

section
variable (s : State)

@[simp] theorem decideIssue_pending : ((decideIssue s).1).pending = s.pending := by rw [decideIssue_frame]
@[simp] theorem decideIssue_resetAsserted : ((decideIssue s).1).resetAsserted = s.resetAsserted := by rw [decideIssue_frame]
@[simp] theorem decideIssue_active : ((decideIssue s).1).active = s.active := by rw [decideIssue_frame]
@[simp] theorem decideIssue_shadow : ((decideIssue s).1).shadow = s.shadow := by rw [decideIssue_frame]
@[simp] theorem decideIssue_sched : ((decideIssue s).1).sched = s.sched := by rw [decideIssue_frame]
@[simp] theorem decideIssue_notices : ((decideIssue s).1).notices = s.notices := by rw [decideIssue_frame]
@[simp] theorem decideIssue_frameMarks : ((decideIssue s).1).frameMarks = s.frameMarks := by rw [decideIssue_frame]
@[simp] theorem decideIssue_settings : ((decideIssue s).1).settings = s.settings := by rw [decideIssue_frame]
@[simp] theorem decideIssue_mgmt : ((decideIssue s).1).mgmt = s.mgmt := by rw [decideIssue_frame]
@[simp] theorem decideIssue_freeCount : ((decideIssue s).1).freeCount = s.freeCount := by rw [decideIssue_frame]

end

/-! ### beatTime -/

/-- A beat time (R26, R27, R37, R48). -/
theorem beatTime_parts (s : State) :
    beatTime s =
      { s with
          sched := (beatTime s).sched, ports := (beatTime s).ports, links := (beatTime s).links,
          atomic := (beatTime s).atomic, mem := (beatTime s).mem, memBeat := (beatTime s).memBeat,
          counters := (beatTime s).counters, nextId := (beatTime s).nextId } := by
  rw [(beatTime_frame s).1]

section
variable (s : State)

@[simp] theorem beatTime_pending : (beatTime s).pending = s.pending := by rw [beatTime_parts]
@[simp] theorem beatTime_resetAsserted : (beatTime s).resetAsserted = s.resetAsserted := by rw [beatTime_parts]
@[simp] theorem beatTime_active : (beatTime s).active = s.active := by rw [beatTime_parts]
@[simp] theorem beatTime_shadow : (beatTime s).shadow = s.shadow := by rw [beatTime_parts]
@[simp] theorem beatTime_notices : (beatTime s).notices = s.notices := by rw [beatTime_parts]
@[simp] theorem beatTime_frameMarks : (beatTime s).frameMarks = s.frameMarks := by rw [beatTime_parts]
@[simp] theorem beatTime_settings : (beatTime s).settings = s.settings := by rw [beatTime_parts]
@[simp] theorem beatTime_mgmt : (beatTime s).mgmt = s.mgmt := by rw [beatTime_parts]
@[simp] theorem beatTime_freeCount : (beatTime s).freeCount = s.freeCount := by rw [beatTime_parts]

end

/-! ### markFirst -/

/-- The frame mark taken before the last beat time of its frame: the mark, the beat time of the slot that ends, and slot 0
(R42, R45, R71, R96, R132). -/
theorem markFirst_spec (s : State) :
    ∃ u : State, MarkTaken s u ∧
      SlotStarted
        ((slotClosed (beatTime u)).setSched
          { (beatTime u).sched with state := .running, timer := none, syncInForce := .internal })
        (markFirst s) 0 :=
  ⟨frameMark (countFrame s), markTaken_spec s, startSlot_spec 0 _⟩

/-- SLOT_END: a slot end, the last beat time of a frame behind its mark, or nothing (R44, R71; log 3). -/
theorem execSlotEnd_cases (s : State) :
    (slotEndDue s = true ∧ execSlotEnd s = .next (endSlot s)) ∨
      (slotEndDue s = false ∧ markFirstDue s = true ∧ execSlotEnd s = .next (markFirst s)) ∨
        (slotEndDue s = false ∧ markFirstDue s = false ∧ execSlotEnd s = .next s) := by
  unfold execSlotEnd
  cases slotEndDue s <;> cases markFirstDue s <;> simp

/-- The frame mark ahead of the last beat time, and what it leaves (R42, R45). -/
theorem markFirst_frame (s : State) :
    markFirst s =
      { s with
          active := (markFirst s).active, sched := (markFirst s).sched, ports := (markFirst s).ports,
          links := (markFirst s).links, atomic := (markFirst s).atomic, mem := (markFirst s).mem,
          memBeat := (markFirst s).memBeat, notices := (markFirst s).notices, counters := (markFirst s).counters,
          frameMarks := (markFirst s).frameMarks, nextId := (markFirst s).nextId,
          freeCount := (markFirst s).freeCount } := by
  obtain ⟨u, hu, hs⟩ := markFirst_spec s
  have hb := beatTime_parts u
  dsimp only [SlotStarted] at hs
  dsimp only [MarkTaken] at hu
  rw [hs.2.2]
  apply state_eq <;> first | rfl | (unfold State.setSched slotClosed; dsimp only; rw [hb, hu.2.2.2])

section
variable (s : State)

@[simp] theorem markFirst_pending : (markFirst s).pending = s.pending := by rw [markFirst_frame]
@[simp] theorem markFirst_resetAsserted : (markFirst s).resetAsserted = s.resetAsserted := by rw [markFirst_frame]
@[simp] theorem markFirst_shadow : (markFirst s).shadow = s.shadow := by rw [markFirst_frame]
@[simp] theorem markFirst_settings : (markFirst s).settings = s.settings := by rw [markFirst_frame]
@[simp] theorem markFirst_mgmt : (markFirst s).mgmt = s.mgmt := by rw [markFirst_frame]

end

/-! ### gapMarkFirst -/

/-- The frame mark taken before the last beat time of a GAP: the mark, the beat time in GAP, and slot 0 (R42, R48, R132). -/
theorem gapMarkFirst_spec (s : State) :
    ∃ u : State, MarkTaken s u ∧
      SlotStarted ((beatTime u).setSched { (beatTime u).sched with state := .running, timer := none })
        (gapMarkFirst s) 0 :=
  ⟨frameMark (countFrame s), markTaken_spec s, startSlot_spec 0 _⟩

/-- SYNC_WAIT_TIMER_EXPIRY: a frame start, the last beat time of a GAP behind the mark, or nothing (R48, R132; log 3). -/
theorem execSyncWaitTimerExpiry_cases (s : State) :
    (timerDue s = true ∧ execSyncWaitTimerExpiry s = .next (frameStart (missedPulse s))) ∨
      (timerDue s = false ∧ gapMarkFirstDue s = true ∧
        execSyncWaitTimerExpiry s = .next (gapMarkFirst (missedPulse s))) ∨
        (timerDue s = false ∧ gapMarkFirstDue s = false ∧ execSyncWaitTimerExpiry s = .next s) := by
  unfold execSyncWaitTimerExpiry
  cases timerDue s <;> cases gapMarkFirstDue s <;> simp

/-- The frame mark ahead of the last beat time of a GAP, and what it leaves (R42, R48). -/
theorem gapMarkFirst_frame (s : State) :
    gapMarkFirst s =
      { s with
          active := (gapMarkFirst s).active, sched := (gapMarkFirst s).sched, ports := (gapMarkFirst s).ports,
          links := (gapMarkFirst s).links, atomic := (gapMarkFirst s).atomic, mem := (gapMarkFirst s).mem,
          memBeat := (gapMarkFirst s).memBeat, notices := (gapMarkFirst s).notices,
          counters := (gapMarkFirst s).counters, frameMarks := (gapMarkFirst s).frameMarks,
          nextId := (gapMarkFirst s).nextId, freeCount := (gapMarkFirst s).freeCount } := by
  obtain ⟨u, hu, hs⟩ := gapMarkFirst_spec s
  have hb := beatTime_parts u
  dsimp only [SlotStarted] at hs
  dsimp only [MarkTaken] at hu
  rw [hs.2.2]
  apply state_eq <;> first | rfl | (unfold State.setSched; dsimp only; rw [hb, hu.2.2.2])

section
variable (s : State)

@[simp] theorem gapMarkFirst_pending : (gapMarkFirst s).pending = s.pending := by rw [gapMarkFirst_frame]
@[simp] theorem gapMarkFirst_resetAsserted : (gapMarkFirst s).resetAsserted = s.resetAsserted := by
  rw [gapMarkFirst_frame]
@[simp] theorem gapMarkFirst_shadow : (gapMarkFirst s).shadow = s.shadow := by rw [gapMarkFirst_frame]
@[simp] theorem gapMarkFirst_settings : (gapMarkFirst s).settings = s.settings := by rw [gapMarkFirst_frame]
@[simp] theorem gapMarkFirst_mgmt : (gapMarkFirst s).mgmt = s.mgmt := by rw [gapMarkFirst_frame]

end

/-! ### takeWedge -/

/-- A wedge (R140, R141). -/
theorem takeWedge_frame (s : State) :
    takeWedge s =
      { s with
          ports := (takeWedge s).ports, links := (takeWedge s).links, atomic := (takeWedge s).atomic,
          mem := (takeWedge s).mem, notices := (takeWedge s).notices, counters := (takeWedge s).counters } := by
  have h := (takeWedge_spec s).2
  dsimp only [WindowAfter] at h
  rw [h]

section
variable (s : State)

@[simp] theorem takeWedge_pending : (takeWedge s).pending = s.pending := by rw [takeWedge_frame]
@[simp] theorem takeWedge_resetAsserted : (takeWedge s).resetAsserted = s.resetAsserted := by rw [takeWedge_frame]
@[simp] theorem takeWedge_active : (takeWedge s).active = s.active := by rw [takeWedge_frame]
@[simp] theorem takeWedge_shadow : (takeWedge s).shadow = s.shadow := by rw [takeWedge_frame]
@[simp] theorem takeWedge_sched : (takeWedge s).sched = s.sched := by rw [takeWedge_frame]
@[simp] theorem takeWedge_memBeat : (takeWedge s).memBeat = s.memBeat := by rw [takeWedge_frame]
@[simp] theorem takeWedge_frameMarks : (takeWedge s).frameMarks = s.frameMarks := by rw [takeWedge_frame]
@[simp] theorem takeWedge_settings : (takeWedge s).settings = s.settings := by rw [takeWedge_frame]
@[simp] theorem takeWedge_mgmt : (takeWedge s).mgmt = s.mgmt := by rw [takeWedge_frame]
@[simp] theorem takeWedge_nextId : (takeWedge s).nextId = s.nextId := by rw [takeWedge_frame]
@[simp] theorem takeWedge_freeCount : (takeWedge s).freeCount = s.freeCount := by rw [takeWedge_frame]

end

/-- WEDGE: the wedge, or nothing (R140, R142; log 3). -/
theorem execWedge_cases (s : State) :
    ((wedgeDue s = true ∨ wedgeAhead s = true) ∧ execWedge s = .next (takeWedge s)) ∨
      (wedgeDue s = false ∧ wedgeAhead s = false ∧ execWedge s = .next s) := by
  unfold execWedge
  cases wedgeDue s <;> cases wedgeAhead s <;> simp

/-- The memory port after a wedge (R140). -/
theorem takeWedge_mem (s : State) :
    (takeWedge s).mem.state = .wedged ∧ (takeWedge s).mem.outstanding = [] ∧
      (takeWedge s).mem.owed = s.mem.outstanding.length := by
  have h := (takeWedge_spec s).2
  dsimp only [WindowAfter] at h
  rw [h]
  exact ⟨rfl, rfl, rfl⟩

/-- A wedge ahead of an issue decision leaves the beat time at hand to pass (R142). -/
theorem beatCanPass_takeWedge {s : State} (h : beatCanPass s = true) : beatCanPass (takeWedge s) = true := by
  simp only [beatCanPass, wedgeDue, slotEndDue, timerDue, takeWedge_resetAsserted, takeWedge_sched,
    (takeWedge_mem s).1] at h ⊢
  simp at h ⊢
  tauto

/-! ### takeRequest -/

/-- The taking of a request (R118, R121). -/
theorem takeRequest_frame (p : Port) (r : Request) (s : State) :
    takeRequest p r s =
      { s with
          ports := (takeRequest p r s).ports, links := (takeRequest p r s).links,
          nextId := (takeRequest p r s).nextId } := by
  have h := (takeRequest_spec p r s).2
  dsimp only at h
  split at h
  · rw [h.2]
  · split at h
    · rw [h.2]
    · rw [h.2]

section
variable (p : Port) (r : Request) (s : State)

@[simp] theorem takeRequest_pending : (takeRequest p r s).pending = s.pending := by rw [takeRequest_frame]
@[simp] theorem takeRequest_resetAsserted : (takeRequest p r s).resetAsserted = s.resetAsserted := by rw [takeRequest_frame]
@[simp] theorem takeRequest_active : (takeRequest p r s).active = s.active := by rw [takeRequest_frame]
@[simp] theorem takeRequest_shadow : (takeRequest p r s).shadow = s.shadow := by rw [takeRequest_frame]
@[simp] theorem takeRequest_sched : (takeRequest p r s).sched = s.sched := by rw [takeRequest_frame]
@[simp] theorem takeRequest_atomic : (takeRequest p r s).atomic = s.atomic := by rw [takeRequest_frame]
@[simp] theorem takeRequest_mem : (takeRequest p r s).mem = s.mem := by rw [takeRequest_frame]
@[simp] theorem takeRequest_memBeat : (takeRequest p r s).memBeat = s.memBeat := by rw [takeRequest_frame]
@[simp] theorem takeRequest_notices : (takeRequest p r s).notices = s.notices := by rw [takeRequest_frame]
@[simp] theorem takeRequest_counters : (takeRequest p r s).counters = s.counters := by rw [takeRequest_frame]
@[simp] theorem takeRequest_frameMarks : (takeRequest p r s).frameMarks = s.frameMarks := by rw [takeRequest_frame]
@[simp] theorem takeRequest_settings : (takeRequest p r s).settings = s.settings := by rw [takeRequest_frame]
@[simp] theorem takeRequest_mgmt : (takeRequest p r s).mgmt = s.mgmt := by rw [takeRequest_frame]
@[simp] theorem takeRequest_freeCount : (takeRequest p r s).freeCount = s.freeCount := by rw [takeRequest_frame]

end

/-! ### presentRequest -/

/-- A request presented (R120). -/
theorem presentRequest_frame (p : Port) (r : Request) (s : State) :
    presentRequest p r s =
      { s with
          ports := (presentRequest p r s).ports, links := (presentRequest p r s).links,
          nextId := (presentRequest p r s).nextId } := by
  rcases presentRequest_cases p r s with ⟨_, h⟩ | ⟨_, _, h⟩ | ⟨_, _, h⟩
  · rw [h]
  · rw [h, takeRequest_frame]
  · rw [h]
    rfl

section
variable (p : Port) (r : Request) (s : State)

@[simp] theorem presentRequest_pending : (presentRequest p r s).pending = s.pending := by rw [presentRequest_frame]
@[simp] theorem presentRequest_resetAsserted : (presentRequest p r s).resetAsserted = s.resetAsserted := by rw [presentRequest_frame]
@[simp] theorem presentRequest_active : (presentRequest p r s).active = s.active := by rw [presentRequest_frame]
@[simp] theorem presentRequest_shadow : (presentRequest p r s).shadow = s.shadow := by rw [presentRequest_frame]
@[simp] theorem presentRequest_sched : (presentRequest p r s).sched = s.sched := by rw [presentRequest_frame]
@[simp] theorem presentRequest_atomic : (presentRequest p r s).atomic = s.atomic := by rw [presentRequest_frame]
@[simp] theorem presentRequest_mem : (presentRequest p r s).mem = s.mem := by rw [presentRequest_frame]
@[simp] theorem presentRequest_memBeat : (presentRequest p r s).memBeat = s.memBeat := by rw [presentRequest_frame]
@[simp] theorem presentRequest_notices : (presentRequest p r s).notices = s.notices := by rw [presentRequest_frame]
@[simp] theorem presentRequest_counters : (presentRequest p r s).counters = s.counters := by rw [presentRequest_frame]
@[simp] theorem presentRequest_frameMarks : (presentRequest p r s).frameMarks = s.frameMarks := by rw [presentRequest_frame]
@[simp] theorem presentRequest_settings : (presentRequest p r s).settings = s.settings := by rw [presentRequest_frame]
@[simp] theorem presentRequest_mgmt : (presentRequest p r s).mgmt = s.mgmt := by rw [presentRequest_frame]
@[simp] theorem presentRequest_freeCount : (presentRequest p r s).freeCount = s.freeCount := by rw [presentRequest_frame]

end

/-! ### takeWithheld -/

/-- A withheld request taken (R120). -/
theorem takeWithheld_frame (p : Port) (s : State) :
    takeWithheld p s =
      { s with
          ports := (takeWithheld p s).ports, links := (takeWithheld p s).links,
          nextId := (takeWithheld p s).nextId } := by
  rcases takeWithheld_cases p s with ⟨r, _, _, h⟩ | ⟨_, h⟩
  · rw [h, takeRequest_frame]
    rfl
  · rw [h]

section
variable (p : Port) (s : State)

@[simp] theorem takeWithheld_pending : (takeWithheld p s).pending = s.pending := by rw [takeWithheld_frame]
@[simp] theorem takeWithheld_resetAsserted : (takeWithheld p s).resetAsserted = s.resetAsserted := by rw [takeWithheld_frame]
@[simp] theorem takeWithheld_active : (takeWithheld p s).active = s.active := by rw [takeWithheld_frame]
@[simp] theorem takeWithheld_shadow : (takeWithheld p s).shadow = s.shadow := by rw [takeWithheld_frame]
@[simp] theorem takeWithheld_sched : (takeWithheld p s).sched = s.sched := by rw [takeWithheld_frame]
@[simp] theorem takeWithheld_atomic : (takeWithheld p s).atomic = s.atomic := by rw [takeWithheld_frame]
@[simp] theorem takeWithheld_mem : (takeWithheld p s).mem = s.mem := by rw [takeWithheld_frame]
@[simp] theorem takeWithheld_memBeat : (takeWithheld p s).memBeat = s.memBeat := by rw [takeWithheld_frame]
@[simp] theorem takeWithheld_notices : (takeWithheld p s).notices = s.notices := by rw [takeWithheld_frame]
@[simp] theorem takeWithheld_counters : (takeWithheld p s).counters = s.counters := by rw [takeWithheld_frame]
@[simp] theorem takeWithheld_frameMarks : (takeWithheld p s).frameMarks = s.frameMarks := by rw [takeWithheld_frame]
@[simp] theorem takeWithheld_settings : (takeWithheld p s).settings = s.settings := by rw [takeWithheld_frame]
@[simp] theorem takeWithheld_mgmt : (takeWithheld p s).mgmt = s.mgmt := by rw [takeWithheld_frame]
@[simp] theorem takeWithheld_freeCount : (takeWithheld p s).freeCount = s.freeCount := by rw [takeWithheld_frame]

end

/-! ### deliver -/

/-- A delivery (R122, R125). -/
theorem deliver_frame (p : Port) (s : State) :
    deliver p s =
      { s with
          ports := (deliver p s).ports, links := (deliver p s).links } := by
  rcases deliver_cases p s with ⟨_, h⟩ | ⟨e, rest, r, _, _, _, _, h⟩
  · rw [h]
  · rw [h]
    split <;> rfl

section
variable (p : Port) (s : State)

@[simp] theorem deliver_pending : (deliver p s).pending = s.pending := by rw [deliver_frame]
@[simp] theorem deliver_resetAsserted : (deliver p s).resetAsserted = s.resetAsserted := by rw [deliver_frame]
@[simp] theorem deliver_active : (deliver p s).active = s.active := by rw [deliver_frame]
@[simp] theorem deliver_shadow : (deliver p s).shadow = s.shadow := by rw [deliver_frame]
@[simp] theorem deliver_sched : (deliver p s).sched = s.sched := by rw [deliver_frame]
@[simp] theorem deliver_atomic : (deliver p s).atomic = s.atomic := by rw [deliver_frame]
@[simp] theorem deliver_mem : (deliver p s).mem = s.mem := by rw [deliver_frame]
@[simp] theorem deliver_memBeat : (deliver p s).memBeat = s.memBeat := by rw [deliver_frame]
@[simp] theorem deliver_notices : (deliver p s).notices = s.notices := by rw [deliver_frame]
@[simp] theorem deliver_counters : (deliver p s).counters = s.counters := by rw [deliver_frame]
@[simp] theorem deliver_frameMarks : (deliver p s).frameMarks = s.frameMarks := by rw [deliver_frame]
@[simp] theorem deliver_settings : (deliver p s).settings = s.settings := by rw [deliver_frame]
@[simp] theorem deliver_mgmt : (deliver p s).mgmt = s.mgmt := by rw [deliver_frame]
@[simp] theorem deliver_nextId : (deliver p s).nextId = s.nextId := by rw [deliver_frame]
@[simp] theorem deliver_freeCount : (deliver p s).freeCount = s.freeCount := by rw [deliver_frame]

end

/-! ### startReset -/

/-- The start of a port reset (R127). -/
theorem startReset_frame (p : Port) (s : State) :
    startReset p s =
      { s with
          ports := (startReset p s).ports, links := (startReset p s).links } := by
  by_cases h : (s.port p).state = .resetting
  · rw [startReset_resetting p s h]
  · have g := startReset_spec p s h
    dsimp only [ResetStarted] at g
    rw [g.2.2]

section
variable (p : Port) (s : State)

@[simp] theorem startReset_pending : (startReset p s).pending = s.pending := by rw [startReset_frame]
@[simp] theorem startReset_resetAsserted : (startReset p s).resetAsserted = s.resetAsserted := by rw [startReset_frame]
@[simp] theorem startReset_active : (startReset p s).active = s.active := by rw [startReset_frame]
@[simp] theorem startReset_shadow : (startReset p s).shadow = s.shadow := by rw [startReset_frame]
@[simp] theorem startReset_sched : (startReset p s).sched = s.sched := by rw [startReset_frame]
@[simp] theorem startReset_atomic : (startReset p s).atomic = s.atomic := by rw [startReset_frame]
@[simp] theorem startReset_mem : (startReset p s).mem = s.mem := by rw [startReset_frame]
@[simp] theorem startReset_memBeat : (startReset p s).memBeat = s.memBeat := by rw [startReset_frame]
@[simp] theorem startReset_notices : (startReset p s).notices = s.notices := by rw [startReset_frame]
@[simp] theorem startReset_counters : (startReset p s).counters = s.counters := by rw [startReset_frame]
@[simp] theorem startReset_frameMarks : (startReset p s).frameMarks = s.frameMarks := by rw [startReset_frame]
@[simp] theorem startReset_settings : (startReset p s).settings = s.settings := by rw [startReset_frame]
@[simp] theorem startReset_mgmt : (startReset p s).mgmt = s.mgmt := by rw [startReset_frame]
@[simp] theorem startReset_nextId : (startReset p s).nextId = s.nextId := by rw [startReset_frame]
@[simp] theorem startReset_freeCount : (startReset p s).freeCount = s.freeCount := by rw [startReset_frame]

end

/-! ### startResets -/

/-- Port resets at the release of RESET_N (R124). -/
theorem startResets_frame (ports : List Port) (s : State) :
    startResets ports s =
      { s with
          ports := (startResets ports s).ports, links := (startResets ports s).links } := by
  induction ports generalizing s with
  | nil => rfl
  | cons p rest ih =>
    change startResets rest (if (s.port p).prst then startReset p s else s) =
      { s with
        ports := (startResets rest (if (s.port p).prst then startReset p s else s)).ports
        links := (startResets rest (if (s.port p).prst then startReset p s else s)).links }
    split
    · rw [ih, startReset_frame]
    · rw [ih]

section
variable (ports : List Port) (s : State)

@[simp] theorem startResets_pending : (startResets ports s).pending = s.pending := by rw [startResets_frame]
@[simp] theorem startResets_resetAsserted : (startResets ports s).resetAsserted = s.resetAsserted := by rw [startResets_frame]
@[simp] theorem startResets_active : (startResets ports s).active = s.active := by rw [startResets_frame]
@[simp] theorem startResets_shadow : (startResets ports s).shadow = s.shadow := by rw [startResets_frame]
@[simp] theorem startResets_sched : (startResets ports s).sched = s.sched := by rw [startResets_frame]
@[simp] theorem startResets_atomic : (startResets ports s).atomic = s.atomic := by rw [startResets_frame]
@[simp] theorem startResets_mem : (startResets ports s).mem = s.mem := by rw [startResets_frame]
@[simp] theorem startResets_memBeat : (startResets ports s).memBeat = s.memBeat := by rw [startResets_frame]
@[simp] theorem startResets_notices : (startResets ports s).notices = s.notices := by rw [startResets_frame]
@[simp] theorem startResets_counters : (startResets ports s).counters = s.counters := by rw [startResets_frame]
@[simp] theorem startResets_frameMarks : (startResets ports s).frameMarks = s.frameMarks := by rw [startResets_frame]
@[simp] theorem startResets_settings : (startResets ports s).settings = s.settings := by rw [startResets_frame]
@[simp] theorem startResets_mgmt : (startResets ports s).mgmt = s.mgmt := by rw [startResets_frame]
@[simp] theorem startResets_nextId : (startResets ports s).nextId = s.nextId := by rw [startResets_frame]
@[simp] theorem startResets_freeCount : (startResets ports s).freeCount = s.freeCount := by rw [startResets_frame]

end

/-! ### endReset -/

/-- The end of a port reset (R128). -/
theorem endReset_frame (p : Port) (s : State) :
    endReset p s =
      { s with
          ports := (endReset p s).ports, notices := (endReset p s).notices } := by
  rcases endReset_cases p s with ⟨_, _, h⟩ | ⟨_, h⟩
  · rw [h]
    rfl
  · rw [h]

section
variable (p : Port) (s : State)

@[simp] theorem endReset_pending : (endReset p s).pending = s.pending := by rw [endReset_frame]
@[simp] theorem endReset_resetAsserted : (endReset p s).resetAsserted = s.resetAsserted := by rw [endReset_frame]
@[simp] theorem endReset_active : (endReset p s).active = s.active := by rw [endReset_frame]
@[simp] theorem endReset_shadow : (endReset p s).shadow = s.shadow := by rw [endReset_frame]
@[simp] theorem endReset_sched : (endReset p s).sched = s.sched := by rw [endReset_frame]
@[simp] theorem endReset_links : (endReset p s).links = s.links := by rw [endReset_frame]
@[simp] theorem endReset_atomic : (endReset p s).atomic = s.atomic := by rw [endReset_frame]
@[simp] theorem endReset_mem : (endReset p s).mem = s.mem := by rw [endReset_frame]
@[simp] theorem endReset_memBeat : (endReset p s).memBeat = s.memBeat := by rw [endReset_frame]
@[simp] theorem endReset_counters : (endReset p s).counters = s.counters := by rw [endReset_frame]
@[simp] theorem endReset_frameMarks : (endReset p s).frameMarks = s.frameMarks := by rw [endReset_frame]
@[simp] theorem endReset_settings : (endReset p s).settings = s.settings := by rw [endReset_frame]
@[simp] theorem endReset_mgmt : (endReset p s).mgmt = s.mgmt := by rw [endReset_frame]
@[simp] theorem endReset_nextId : (endReset p s).nextId = s.nextId := by rw [endReset_frame]
@[simp] theorem endReset_freeCount : (endReset p s).freeCount = s.freeCount := by rw [endReset_frame]

end

/-! ### takeResponse -/

/-- A response of the memory controller (R136, R138). -/
theorem takeResponse_frame (status : MemStatus) (element : Elem) (s : State) :
    takeResponse status element s =
      { s with
          ports := (takeResponse status element s).ports, links := (takeResponse status element s).links,
          atomic := (takeResponse status element s).atomic, mem := (takeResponse status element s).mem,
          notices := (takeResponse status element s).notices,
          counters := (takeResponse status element s).counters } := by
  rcases takeResponse_cases status element s with ⟨_, h⟩ | ⟨_, ⟨b, rest, _, h⟩ | ⟨_, _, h⟩ | ⟨_, _, h⟩⟩
  · rw [h]
  · rw [h, grantMaint_spec]
    by_cases hk : b.kind = .atomicRead
    · unfold handResponse
      rw [hk]
      cases status with
      | ok =>
        dsimp only
        cases ha : s.atomic with
        | none =>
          have : (s.setMem { s.mem with outstanding := rest }).atomic = none := ha
          unfold atomicReadMatched
          rw [this]
          rfl
        | some a =>
          rw [atomicReadMatched_eq _ _ a (by exact ha)]
          rfl
      | memerr =>
        dsimp only
        unfold atomicReadFailed
        dsimp only
        rw [modPort_eq, takeDrops_frame, noteMemerr_frame]
        rfl
    · rw [handResponse_frame _ _ _ _ hk]
      rfl
  · rw [h]
    rfl
  · rw [h]
    rfl

section
variable (status : MemStatus) (element : Elem) (s : State)

@[simp] theorem takeResponse_pending : (takeResponse status element s).pending = s.pending := by rw [takeResponse_frame]
@[simp] theorem takeResponse_resetAsserted : (takeResponse status element s).resetAsserted = s.resetAsserted := by rw [takeResponse_frame]
@[simp] theorem takeResponse_active : (takeResponse status element s).active = s.active := by rw [takeResponse_frame]
@[simp] theorem takeResponse_shadow : (takeResponse status element s).shadow = s.shadow := by rw [takeResponse_frame]
@[simp] theorem takeResponse_sched : (takeResponse status element s).sched = s.sched := by rw [takeResponse_frame]
@[simp] theorem takeResponse_memBeat : (takeResponse status element s).memBeat = s.memBeat := by rw [takeResponse_frame]
@[simp] theorem takeResponse_frameMarks : (takeResponse status element s).frameMarks = s.frameMarks := by rw [takeResponse_frame]
@[simp] theorem takeResponse_settings : (takeResponse status element s).settings = s.settings := by rw [takeResponse_frame]
@[simp] theorem takeResponse_mgmt : (takeResponse status element s).mgmt = s.mgmt := by rw [takeResponse_frame]
@[simp] theorem takeResponse_nextId : (takeResponse status element s).nextId = s.nextId := by rw [takeResponse_frame]
@[simp] theorem takeResponse_freeCount : (takeResponse status element s).freeCount = s.freeCount := by rw [takeResponse_frame]

end

end Sys2Proof.Machine
end

