-- ==== Sys2Proof/Laws/Management.lean ====
section
/-! SUPPORT. What a management frame does (R162 to R167), and the contents of the responses as the statements write
them. -/

namespace Sys2Proof.Machine

open Sys2Proof.Safety

/-! ### A frame ends -/

@[simp] theorem shiftIn_frame (bits : List Bool) (s : State) : (shiftIn bits s).mgmt.frame = .shifting bits := rfl

@[simp] theorem riseOfMsel_frame (s : State) : (riseOfMsel s).mgmt.frame = .none := rfl

/-- The gate when a frame of n bits has clocked the buffer out and MSEL_n has risen (R162, R165). -/
abbrev clocked (n : Nat) (s : State) : State :=
  s.setMgmt { s.mgmt with frame := .none, mdo := readoutBits s.mgmt.response n, readout := n }

/-- A frame that ends while frames are taken is carried out on the gate that has clocked it (R165). -/
theorem endFrame_listening {s : State} (h : Listening s) (bits : List Bool) (f : State → State) :
    endFrame bits f s = f (clocked bits.length s) := by
  unfold endFrame
  rw [h.1, if_neg (by decide), if_neg h.2]
  unfold riseOfMsel shiftIn
  rw [clockedOut_eq]
  rfl

/-- While RESET_N is asserted no frame is taken (R167). -/
theorem endFrame_reset {s : State} (h : s.resetAsserted = true) (bits : List Bool) (f : State → State) :
    endFrame bits f s = s := by
  unfold endFrame
  rw [if_pos h]

/-- The frame in progress at the release of RESET_N is discarded (R167). -/
theorem endFrame_discarding {s : State} (h : s.resetAsserted = false) (hd : s.mgmt.frame = .discarding)
    (bits : List Bool) (f : State → State) : endFrame bits f s = s.setMgmt { s.mgmt with frame := .none } := by
  unfold endFrame
  rw [h, hd]
  rfl

/-- A response replaces the buffer and counts the frame; nothing else of the gate changes (R164, R166). -/
theorem respond_spec {s : State} (n : Nat) (code : Byte) (r : MgmtReply) (hm : r.state.mgmt = (clocked n s).mgmt) :
    respond code r = { r.state with mgmt := answered s code n r.status r.data } := by
  unfold respond
  dsimp only
  rw [hm]
  have hq : (clocked n s).mgmt.seqCount = s.mgmt.seqCount := rfl
  rw [hq, sequenceByte_eq]
  rfl

/-- The number of bits of a command's frame (R162, R168). -/
theorem commandBits_length (code : Byte) (args : List Byte) (fill : Nat) :
    (bitsOfBytes (code :: args ++ List.replicate fill 0)).length = 8 * (args.length + 1 + fill) := by
  rw [bitsOfBytes_length]
  simp only [List.length_append, List.length_cons, List.length_replicate]

/-- A command that leaves the management port to its framing is carried out and answered (R164). -/
theorem command_spec {s : State} (h : Listening s) (code : Byte) (args : List Byte) (fill : Nat)
    (body : State → MgmtReply)
    (hm : (body (clocked (8 * (args.length + 1 + fill)) s)).state.mgmt =
      (clocked (8 * (args.length + 1 + fill)) s).mgmt) :
    command code args fill body s =
      { (body (clocked (8 * (args.length + 1 + fill)) s)).state with
        mgmt :=
          answered s code (8 * (args.length + 1 + fill))
            (body (clocked (8 * (args.length + 1 + fill)) s)).status
            (body (clocked (8 * (args.length + 1 + fill)) s)).data } := by
  unfold command
  rw [endFrame_listening h, commandBits_length]
  exact respond_spec _ code _ hm

/-- A command that is refused changes nothing of the gate but the management port (R169). -/
theorem command_refuse {s : State} (h : Listening s) (code : Byte) (args : List Byte) (fill : Nat)
    (body : State → MgmtReply) (status : MgmtStatus)
    (hr : body (clocked (8 * (args.length + 1 + fill)) s) =
      refuse (clocked (8 * (args.length + 1 + fill)) s) status) :
    command code args fill body s =
      { s with mgmt := answered s code (8 * (args.length + 1 + fill)) status [] } := by
  rw [command_spec h code args fill body (by rw [hr]; rfl), hr]
  rfl

/-- A command that answers data and changes nothing else of the gate. -/
theorem command_accept {s : State} (h : Listening s) (code : Byte) (args : List Byte) (fill : Nat)
    (body : State → MgmtReply) (data : List Byte)
    (hr : body (clocked (8 * (args.length + 1 + fill)) s) =
      accept (clocked (8 * (args.length + 1 + fill)) s) data) :
    command code args fill body s =
      { s with mgmt := answered s code (8 * (args.length + 1 + fill)) .accepted data } := by
  rw [command_spec h code args fill body (by rw [hr]; rfl), hr]
  rfl

/-! ### Settings -/

/-- The value column of the table of settings, on given settings. -/
theorem settingTable_values (t : Settings) : settingTable.map (fun r => r.value t) = storedValues t := by
  unfold storedValues
  rw [show (if t.syncMode = .internal then 0 else 1) = SyncMode.code t.syncMode by cases t.syncMode <;> rfl]
  rfl

/-- The stored value of a setting is its place in the list of R170. -/
theorem settingValue_eq (t : Settings) (n : Nat) : settingValue t n = (storedValues t).getD n 0 := by
  unfold settingValue
  rw [← List.getElem?_map, settingTable_values, List.getD_eq_getElem?_getD]

/-- The range check is the range column of R170. -/
theorem settingInRange_iff (number : Nat) (value : Half) :
    settingInRange number value.toNat = true ↔ SettingRange number value.toNat := by
  have hv := value.isLt
  by_cases h : number < 10
  · interval_cases number <;> simp [settingInRange, settingTable, SettingRange] <;> omega
  · have hn : settingTable[number]? = none := by simp [settingTable]; omega
    simp only [settingInRange, hn, Option.any_none, SettingRange]
    constructor
    · intro hf
      cases hf
    · omega

/-! ### Data bytes -/

theorem flag_eq (b : Bool) : flag b = BitVec.ofNat 8 b.toNat := by cases b <;> rfl

/-- Three bytes for one entry of READ_PORT's queue. -/
theorem entryBytes_eq (e : Entry) : e.bytes = placeBytes (some e) := by
  rcases e with ⟨_, ⟨kind, _, _, _, _⟩, state, _, _, _, _, _, marked⟩
  cases kind <;> cases state <;> cases marked <;> rfl

/-- The four places of READ_PORT's queue, by their number. -/
theorem queueBytes_eq (q : List Entry) :
    queueBytes q = placeBytes q[0]? ++ placeBytes q[1]? ++ placeBytes q[2]? ++ placeBytes q[3]? := by
  match q with
  | [] => rfl
  | [a] =>
    simp [queueBytes, entryBytes_eq]
    rfl
  | [a, b] =>
    simp [queueBytes, entryBytes_eq]
    rfl
  | [a, b, c] =>
    simp [queueBytes, entryBytes_eq]
    rfl
  | a :: b :: c :: d :: rest => simp [queueBytes, entryBytes_eq]

/-- The data bytes of READ_PORT are those of R173. -/
theorem portRecBytes_eq (x : PortRec) : x.bytes = portBytes x := by
  have h1 : x.state.code = BitVec.ofNat 8 ([PortState.opened, .halting, .disabled, .resetting].idxOf x.state) := by
    cases x.state <;> rfl
  have h2 : lastLossByte x.lastLoss =
      BitVec.ofNat 8
        ([none, some .overwritten, some .selfWrite, some .width, some .replaced, some .evicted, some .aged,
          some .dropped, some .faulted, some LossCause.purged].idxOf x.lastLoss) := by
    cases x.lastLoss with
    | none => rfl
    | some c => cases c <;> rfl
  unfold PortRec.bytes portBytes
  rw [h1, h2, queueBytes_eq, be32_eq, be32_eq, be32_eq, be32_eq, be32_eq, be32_eq, be16_eq, flag_eq, flag_eq, flag_eq]
  simp only [byteN, List.append_assoc]

/-- The data bytes of READ_GATE are those of R174. -/
theorem gateBytes_eq (s : State) : gateBytes s = gateData s := by
  have h1 : s.sched.state.code = BitVec.ofNat 8 ([SchedState.stopped, .running, .draining, .gap].idxOf s.sched.state) := by
    cases s.sched.state <;> rfl
  have h2 : byteN s.sched.syncInForce.code = if s.sched.syncInForce = .internal then 0 else 1 := by
    cases s.sched.syncInForce <;> rfl
  have h3 : s.sched.commit.code = if s.sched.commit = .none then 0 else 1 := by cases s.sched.commit <;> rfl
  have h4 : s.mem.state.code = if s.mem.state = .ready then 0 else 1 := by cases s.mem.state <;> rfl
  have h5 : timerValue s.sched.timer = s.sched.timer.getD 0 := by cases s.sched.timer <;> rfl
  unfold gateBytes gateData
  rw [h1, h2, h3, h4, h5, be32_eq, be32_eq, be32_eq, be32_eq, be32_eq, be32_eq, be16_eq, be16N_eq]
  simp only [byteN, List.append_assoc]

/-- The data bytes of PEEK_NOTICE and TAKE_NOTICE are those of R155. -/
theorem noticeBytes_eq (r : Option NoticeRecord) (held : Nat) (lost : Byte) :
    noticeBytes r held lost = recordBytes r ++ [BitVec.ofNat 8 held, lost] := by
  cases r with
  | none => rfl
  | some r =>
    unfold noticeBytes recordBytes
    dsimp only
    rw [be32_eq, be16_eq]
    cases r.notice <;> rfl

/-- The slot time of a table is the sum of R4. -/
theorem slotTime_eq (t : SlotTable) : t.slotTime = slotTimeOf t := by
  have hl : t.slots.toList.map SlotRecord.length =
      (List.finRange 32).map fun i => (t.slots.get i).length := by
    apply List.ext_getElem
    · simp
    · intro i h1 h2
      simp
      rfl
  have key : ∀ n, ((List.finRange 32).filter fun i => i.val < n) = (List.finRange 32).take n := by
    intro n
    by_cases h : n < 33
    · exact (by decide : ∀ k < 33, ((List.finRange 32).filter fun i => i.val < k) = (List.finRange 32).take k) n h
    · rw [List.take_of_length_le (by simp; omega), List.filter_eq_self]
      intro i _
      simp
      omega
  unfold SlotTable.slotTime slotTimeOf
  rw [key, List.map_take, hl, List.map_take]

end Sys2Proof.Machine
end

