-- ==== Sys2Proof/Tests/Slice0.lean ====
section
/-! SUPPORT. Small tests: ill-formed terms, words written from the spec's encodings, cases of the spec's tables and worked
sequences, and a witness for the hypotheses of each statement. -/

namespace Sys2Proof.Tests

open Sys2Proof Sys2Proof.Machine Sys2Proof.Safety

/-! ### Small states -/

/-- The gate in its first frame after reset: slot 0, a POOL slot of 16 beat times, without a grantee (R41). -/
def up : State :=
  { State.reset with
    resetAsserted := false
    sched := { Scheduler.reset with budget := 16, record := some (.pool 16), frameNumber := 1 }
    frameMarks := 1 }

/-- A request of 4-byte elements. -/
def req (k : Kind) (a : Word) (beats : Nat) (data : List Elem) : Request :=
  { kind := k, addr := a, size := 2, beats := beats, data := data }

/-- An entry with identity 7. -/
def entry (r : Request) (st : EntryState) : Entry := newEntry 7 r st

/-- The first frame with port 1 holding these entries and granted the slot. -/
def held (q : List Entry) : State :=
  (up.setPort 1 { PortRec.reset with queue := q }).setSched { up.sched with grantee := some 1 }

/-- A link of port p on a granule base, of width 4. -/
def link (p : Port) (base : Word) : Link := { holder := p, base := base, width := 4, age := 0, openedBy := 0 }

/-- A beat of port 1's entry 7. -/
def beat (k : BeatKind) (deadline : Option Nat) : BeatRecord :=
  { port := 1, entry := 7, index := 0, kind := k, addr := 0x6000, deadline := deadline, serial := 3 }

/-- The first frame with these beats outstanding. -/
def flying (l : List BeatRecord) : State := up.setMem { up.mem with outstanding := l }

/-- The atomic record of port 1's entry 7, a BOUNDED ADD of 25 under 100 at 0x6000. -/
def update (ph : AtomicPhase) : AtomicRecord :=
  { port := 1, entry := 7, addr := 0x6000, op := .boundedAdd 25 100, phase := ph, overhanging := true }

/-- The first frame with another scheduler state in which no slot exists. -/
def idle (st : SchedState) (timer : Option Nat) : State :=
  up.setSched { Scheduler.reset with state := st, timer := timer, syncInForce := .external, frameNumber := 1 }

/-- What a test reads of a next state; `dflt` on any other outcome. -/
def after {α : Type} (dflt : α) (f : State → α) : Host.Outcome State Fault Refusal → α
  | .next t => f t
  | _ => dflt

/-- The bytes in the response buffer after a command. -/
def buffer (i : Instr) (s : State) : List Nat :=
  after [] (fun t => t.mgmt.response.bytes.map BitVec.toNat) (exec i s)

/-! ### Ill-formed terms -/

theorem test_wf_write_of_32_phases : (Instr.write 0 2 0 (List.replicate 32 0)).wf = false := by decide
theorem test_wf_write_of_31_phases : (Instr.write 0 2 0 (List.replicate 31 0)).wf = true := by decide
theorem test_wf_fillFrame_of_no_byte : (Instr.fillFrame 0).wf = false := by decide
theorem test_wf_badFrame_that_is_empty : (Instr.badFrame []).wf = false := by decide
theorem test_wf_badFrame_that_is_a_command :
    (Instr.badFrame [false, true, true, true, false, false, false, true]).wf = false := by decide
theorem test_wf_badCommand_of_a_known_code :
    (Instr.badCommand [false, true, true, true, false, false, false, true]).wf = false := by decide
theorem test_wf_badCommand_code_9 :
    (Instr.badCommand [false, false, false, false, true, false, false, true]).wf = true := by decide
theorem test_wf_writeSetting_of_setting_9 : (Instr.writeSetting 9 0 0).wf = false := by decide
theorem test_wf_writeSetting_of_setting_10 : (Instr.writeSetting 10 0 0).wf = true := by decide
theorem test_exec_refuses_ill_formed_frame : exec (.badFrame []) up = .refused .notThisFrame := by rfl

/-! ### Words written from the encodings of R168 and R117 -/

/-- 0x71, most significant bit first. -/
theorem test_decode_readGate :
    decodeFrame [false, true, true, true, false, false, false, true] = .readGate 0 := by decide

/-- 0x33, port 5. -/
theorem test_decode_readPort :
    decodeFrame [false, false, true, true, false, false, true, true, false, false, false, false, false, true, false, true] =
      .readPort 5 0 := by decide

/-- 0x02, setting 4, value 0x0040 high byte first, and one fill byte. -/
theorem test_decode_writeGranule :
    decodeFrame
        ([false, false, false, false, false, false, true, false] ++ [false, false, false, false, false, true, false, false] ++
          [false, false, false, false, false, false, false, false] ++
          [false, true, false, false, false, false, false, false] ++
          [false, false, false, false, false, false, false, false]) =
      .writeGranule 64 1 := by decide

/-- 0x10: index 3, kind OWNED, owner 6, length 8, donate YES. -/
theorem test_decode_writeSlot :
    decodeFrame
        ([false, false, false, true, false, false, false, false] ++ [false, false, false, false, false, false, true, true] ++
          [false, false, false, false, false, false, false, false] ++
          [false, false, false, false, false, true, true, false] ++
          [false, false, false, false, true, false, false, false] ++
          [false, false, false, false, false, false, false, true]) =
      .writeSlot 3 0 6 8 1 0 := by decide

/-- 0x41 0xFF. -/
theorem test_decode_purgeLinks :
    decodeFrame [false, true, false, false, false, false, false, true, true, true, true, true, true, true, true, true] =
      .purgeLinks 255 0 := by decide

/-- The one-byte codes 0x13 to 0x15, 0x20, 0x21, 0x50, 0x51, 0x60, 0x61 and 0x70. -/
theorem test_decode_one_byte_commands :
    decodeFrame [false, false, false, true, false, false, true, true] = .commitTable 0 ∧
      decodeFrame [false, false, false, true, false, true, false, false] = .cancelCommit 0 ∧
      decodeFrame [false, false, false, true, false, true, false, true] = .copyActive 0 ∧
      decodeFrame [false, false, true, false, false, false, false, false] = .start 0 ∧
      decodeFrame [false, false, true, false, false, false, false, true] = .stop 0 ∧
      decodeFrame [false, true, false, true, false, false, false, false] = .peekNotice 0 ∧
      decodeFrame [false, true, false, true, false, false, false, true] = .takeNotice 0 ∧
      decodeFrame [false, true, true, false, false, false, false, false] = .recover 0 ∧
      decodeFrame [false, true, true, false, false, false, false, true] = .recoverForce 0 ∧
      decodeFrame [false, true, true, true, false, false, false, false] = .clearState 0 := by decide

/-- The five cases of R117, in their order. -/
theorem test_decode_kinds :
    (RequestPhase.mk true true true true 2 0 0).kind = .boundedAdd ∧
      (RequestPhase.mk true true false true 2 0 0).kind = .swap ∧
      (RequestPhase.mk true true true false 0 0 0).kind = .linkDrop ∧
      (RequestPhase.mk true true false false 2 0 0).kind = .linkedRead ∧
      (RequestPhase.mk false false true false 2 0 0).kind = .conditionalWrite ∧
      (RequestPhase.mk true false false false 2 4 0).kind = .write ∧
      (RequestPhase.mk false false false false 2 4 0).kind = .read := by decide

/-- A BOUNDED ADD sends the delta first and the ceiling second. -/
theorem test_decode_boundedAdd :
    decodeRequest 2 ⟨true, false, true, true, 2, 0, 0x6000⟩ [25, 100] = some (.boundedAdd 2 2 0x6000 25 100) := by decide

/-! ### The frames of chapter 10's worked session -/

theorem test_session_readSetting : buffer (.readSetting 4 0) up = [0x00, 0x11, 0x04, 0x00, 0x20] := by decide

/-- Frame 2: 48 is no GRANULE; it is the second frame counted. -/
theorem test_session_write_refused :
    buffer (.writeGranule 48 1) (up.setMgmt { up.mgmt with seqCount := 1 }) = [0x03, 0x22] := by decide

/-- Frame 3: three bytes for a code of length 4. -/
theorem test_session_short_frame :
    buffer (.badFrame (bitsOfBytes [0x02, 0x04, 0x00])) (up.setMgmt { up.mgmt with seqCount := 2 }) = [0x05, 0x32] := by
  decide

/-- Frame 4: an unknown code. -/
theorem test_session_unknown_code :
    buffer (.badCommand (bitsOfBytes [0x09])) (up.setMgmt { up.mgmt with seqCount := 3 }) = [0x04, 0x49] := by decide

/-- Frame 5: an empty frame keeps the buffer. -/
theorem test_session_empty_frame :
    buffer .emptyFrame (up.setMgmt { up.mgmt with response := ⟨.badCommand, 0x49, []⟩ }) = [0x04, 0x49] := by decide

/-- Frame 6 reads what frame 4 left. -/
theorem test_session_fill_frame :
    after [] (fun t => (bytesOfBits t.mgmt.mdo).map BitVec.toNat)
      (exec (.fillFrame 2) (up.setMgmt { up.mgmt with response := ⟨.badCommand, 0x49, []⟩ })) = [0x04, 0x49] := by decide

/-- Frame 7: GRANULE becomes 64, and port 0's link closes PURGED. -/
theorem test_session_write_granule :
    let s := (up.setMgmt { up.mgmt with seqCount := 4 }).setLinks [link 0 0x20]
    buffer (.writeGranule 64 0) s = [0x00, 0x52, 0x04, 0x00, 0x40] ∧
      after none (fun t => (t.port 0).lastLoss) (exec (.writeGranule 64 0) s) = some .purged := by decide

/-! ### Tables and worked sequences of the other chapters -/

/-- The table of R103. -/
theorem test_boundedAdd_table :
    atomicResult (.boundedAdd 25 100) 90 = (100, some true) ∧ atomicResult (.boundedAdd 10 100) 90 = (100, some false) ∧
      atomicResult (.boundedAdd (-8) 100) 5 = (0, some true) ∧ atomicResult (.boundedAdd (-5) 100) 5 = (0, some false) ∧
      atomicResult (.boundedAdd 0 100) 150 = (100, some true) ∧
      atomicResult (.boundedAdd (-60) 100) 150 = (90, some false) ∧
      atomicResult (.boundedAdd 1 4294967295) 4294967295 = (4294967295, some true) ∧
      atomicResult (.boundedAdd 3 0) 7 = (0, some true) := by decide

/-- Chapter 6: 90 and a delta of 25 under a ceiling of 100 owe a write of 100, and CLAMP_COUNT rises. -/
theorem test_atomic_read_answered :
    let s := (flying [beat .atomicRead none]).setAtomic (some (update .reading))
    after none (fun t => t.atomic.map AtomicRecord.phase) (exec (.memoryResponse .ok 90) s) =
        some (.writeOwed 90 100 (some true)) ∧
      after 0 (fun t => (t.port 1).clampCount) (exec (.memoryResponse .ok 90) s) = 1 := by decide

/-- Chapter 6: the owed write issues as an overhang and closes port 5's link OVERWRITTEN. -/
theorem test_owed_write_issues :
    let s := ((held [entry (req .boundedAdd 0x6000 1 [25, 100]) .partly]).setAtomic
      (some (update (.writeOwed 90 100 (some true))))).setLinks [link 5 0x6000]
    after (0, none, []) (fun t => (t.counters.overhangCount, (t.port 5).lastLoss, t.links)) (exec .atomicWriteBeat s) =
        (1, some .overwritten, []) ∧
      after none (fun t => t.memBeat) (exec .atomicWriteBeat s) =
        some { write := true, addr := 0x6000, bytes := 4, element := some 100 } := by decide

/-- Chapter 2: with port 1 not ready its slot is donated, and the pick from POOL_NEXT 0 finds port 3; POOL_NEXT is 4. -/
theorem test_donation_picks_port_3 :
    let s := up.setPort 3 { PortRec.reset with queue := [entry (req .write 0 8 (List.replicate 8 0)) .waiting] }
    chooseGrantee s (.owned 1 8 true) = (some 3, 4) := by decide

/-- R23: after port 7 the examination goes on at port 0. -/
theorem test_pool_pick_wraps :
    let s := (up.setPort 0 { PortRec.reset with queue := [entry (req .read 0 1 []) .waiting] }).setSched
      { up.sched with poolNext := 6 }
    chooseGrantee s (.pool 8) = (some 0, 1) := by decide

/-- R19: a READ of 8 beats does not fit a slot of 7 with SPLIT_OK clear, and fits with it set. -/
theorem test_fit_of_a_burst :
    fits false 7 (entry (req .read 0 8 []) .waiting) = false ∧ fits false 8 (entry (req .read 0 8 []) .waiting) = true ∧
      fits true 1 (entry (req .read 0 8 []) .waiting) = true ∧
      fits false 1 (entry (req .swap 0 1 [1]) .waiting) = false := by decide

/-- R118: the first check that fails gives the reason; 64 KiB times 2 to the 0 ends at 0x10000. -/
theorem test_acceptance_checks :
    firstFailure { req .read 2 17 [] with size := 4 } 65536 true = some .size ∧
      firstFailure (req .read 2 17 []) 65536 true = some .align ∧
      firstFailure (req .read 0 17 []) 65536 true = some .beats ∧
      firstFailure (req .read 0xFFFC 2 []) 65536 true = some .range ∧
      firstFailure (req .read 0x3FC 2 []) 65536 true = some .boundary ∧
      firstFailure (req .read 0x3FC 1 []) 65536 true = some .closed ∧
      firstFailure (req .read 0xFFFC 1 []) 65536 false = none := by decide

/-- R85, R86: the pair completes; the link is gone and COND_OK counts. -/
theorem test_conditional_write_succeeds :
    let s := (held [entry (req .conditionalWrite 0x6004 1 [9]) .waiting]).setLinks [link 1 0x6000, link 5 0x6000]
    after (0, [], none) (fun t => ((t.port 1).condOk, t.links, (t.port 5).lastLoss)) (exec .issueDecision s) =
      (1, [], some .overwritten) := by decide

/-- R87: no link, no beat, COND_FAIL, and the entry is FAILED with NO_LINK. -/
theorem test_conditional_write_fails :
    let s := (held [entry (req .conditionalWrite 0x6004 1 [9]) .waiting]).setLinks [link 5 0x6000]
    after (0, [], []) (fun t => ((t.port 1).condFail, t.mem.outstanding, (t.port 1).queue.map Entry.state))
        (exec .issueDecision s) = (1, [], [.ready .noLink]) := by decide

/-- R66: under LINK_LIMIT 1 a port's new link replaces its old one. -/
theorem test_linked_read_replaces :
    let s := (held [entry (req .linkedRead 0x6024 1 []) .waiting]).setLinks [link 1 0x6000, link 5 0x6000]
    after ([], none) (fun t => (t.links.map Link.base, (t.port 1).lastLoss)) (exec .issueDecision s) =
      ([0x6000, 0x6020], some .replaced) := by decide

/-- The last beat time of the first frame, its slot granted to port 1, whose LINKED READ to 0x6004 is next. -/
def lastBeat : State :=
  let s := held [entry (req .linkedRead 0x6004 1 []) .waiting]
  s.setSched { s.sched with budget := 1 }

/-- R71: the beat first, its link has age 1 after the mark; frame 2 has started. -/
theorem test_link_opened_before_the_mark :
    after ([], 0, 0) (fun t => (t.links.map Link.age, t.sched.frameNumber, t.sched.budget))
      (exec .slotEnd (after lastBeat id (exec .issueDecision lastBeat))) = ([1], 2, 16) := by decide

/-- R71: the mark first, the link opens after the increment with age 0; frame 2 has started. -/
theorem test_link_opened_after_the_mark :
    after ([], 0, 0) (fun t => (t.links.map Link.age, t.sched.frameNumber, t.sched.budget)) (exec .slotEnd lastBeat) =
      ([0], 2, 16) := by decide

/-- R71: the mark first closes the link AGED, and the LINKED READ opens a new one. -/
theorem test_mark_closes_the_link_of_a_refresh :
    let s := (lastBeat.setLinks [{ link 1 0x6000 with age := 5 }]).setSettings
      { lastBeat.settings with linkAgeLimit := 5 }
    after ([], none) (fun t => (t.links.map Link.age, (t.port 1).lastLoss)) (exec .slotEnd s) = ([0], some .aged) := by
  decide

/-- R132: an atomic write beat as the last beat of a frame, after the mark, clears the new frame's watch; the ending frame
counts. -/
theorem test_last_beat_after_the_mark_counts_the_frame :
    let s := (lastBeat.setPort 1
      { PortRec.reset with queue := [entry (req .boundedAdd 0x6000 1 [25, 100]) .partly], watching := true }).setAtomic
        (some { update (.writeOwed 90 100 (some true)) with overhanging := false })
    after (0, true) (fun t => ((t.port 1).waitCounter, (t.port 1).watching)) (exec .slotEnd s) = (1, false) := by decide

/-- R132: an atomic write beat in GAP and the mark of the sync wait timer, in both orders: the beat first clears the ending
frame's watch, and the counter becomes 0; the mark first counts the ending frame, and the beat clears the new frame's watch.
Frame 2 has started in both, and SYNC_MISSING carries frame 1. -/
theorem test_gap_write_beat_and_the_mark :
    let s := ((idle .gap (some 1)).setPort 1
      { PortRec.reset with
        queue :=
          [entry (req .boundedAdd 0x6000 1 [25, 100]) .partly, { entry (req .read 0 1 []) .waiting with id := 8 }]
        watching := true }).setAtomic (some (update (.writeOwed 90 100 (some true))))
    let look := fun t : State =>
      ((t.port 1).waitCounter, (t.port 1).watching, t.sched.frameNumber, t.notices.records.map NoticeRecord.frame,
        t.memBeat.isSome)
    after (0, true, 0, [], false) look (exec .syncWaitTimerExpiry (after s id (exec .atomicWriteBeat s))) =
        (0, true, 2, [1], true) ∧
      after (0, true, 0, [], false) look (exec .syncWaitTimerExpiry s) = (1, false, 2, [1], true) := by decide

/-- R18, R124: a HALTING port wins a POOL slot; R10 against R18, R21: in its own slot that is left free. -/
theorem test_halting_port_at_a_slot_start :
    let s := up.setPort 1
      { PortRec.reset with state := .halting, enabled := false, queue := [entry (req .read 0 1 []) .waiting] }
    chooseGrantee s (.pool 8) = (some 1, 2) ∧
      chooseGrantee s (.owned 1 8 true) = if Config.haltingOwnerReady then (some 1, 0) else (none, 0) := by
  refine ⟨by decide, ?_⟩
  unfold chooseGrantee poolPick
  delta readyFor
  cases Config.haltingOwnerReady <;> decide

/-- R62: of two links of port 1 the older closes when LINK_LIMIT falls to 1; port 5's only link stands. -/
theorem test_lowered_limit_closes_the_older :
    let s := (up.setLinks [link 1 0x6000, link 5 0x6000, link 1 0x6020]).setSettings { up.settings with linkLimit := 2 }
    after ([], none, 0) (fun t => (t.links, (t.port 1).lastLoss, (t.port 1).lossCount)) (exec (.writeLinkLimit 1 0) s) =
      ([link 5 0x6000, link 1 0x6020], some .replaced, 1) := by decide

/-- R115: the data of a refused WRITE is discarded. -/
theorem test_refused_write_keeps_no_data :
    after [] (fun t => (t.port 1).queue.map fun e => (e.state, e.req.data)) (exec (.write 1 2 0x6001 [7, 8]) up) =
      [(.refusal .align, [])] := by decide

/-- R161, R162: the bits shifted in stand as the frame in progress while MSEL_n is low. -/
theorem test_bits_shifted_in :
    (shiftIn [false, true, true] up).mgmt.frame = .shifting [false, true, true] ∧
      (shiftIn [false, true, true] up).mgmt.readout = 3 := by decide

/-- R58: granule bases under 16, 32 and 64. -/
theorem test_granule_bases :
    granuleBase 16 0x605F = 0x6050 ∧ granuleBase 32 0x605F = 0x6040 ∧ granuleBase 64 0x607F = 0x6040 := by decide

/-- R123: a READ streams the elements its oldest entry holds; an entry marked for discard streams none. -/
theorem test_streamed_elements :
    let e := { entry (req .read 0x6000 4 []) .partly with data := [1, 2] }
    streamed { PortRec.reset with queue := [e] } = [1, 2] ∧
      streamed { PortRec.reset with queue := [{ e with marked := true }] } = [] ∧
      streamed { PortRec.reset with queue := [entry (req .swap 0 1 [1]) .waiting, e] } = [] := by decide

/-- R69: a WRITE beat closes other holders' links OVERWRITTEN and its own port's SELF_WRITE. -/
theorem test_write_closes_links :
    let s := (held [entry (req .write 0x6000 1 [9]) .waiting]).setLinks [link 1 0x6000, link 5 0x6000, link 5 0x6020]
    after ([], none, none) (fun t => (t.links, (t.port 1).lastLoss, (t.port 5).lastLoss)) (exec .issueDecision s) =
      ([link 5 0x6020], some .selfWrite, some .overwritten) := by decide

/-- R140, R141: the wedge answers TIMEOUT and owes one response. -/
theorem test_wedge :
    let s := (flying [beat .write (some 0)]).setPort 1
      { PortRec.reset with queue := [entry (req .write 0x6000 1 [9]) .issued] }
    after (.ready, 0, []) (fun t => (t.mem.state, t.mem.owed, (t.port 1).queue.map Entry.state)) (exec .wedge s) =
      (.wedged, 1, [.ready .timeout]) := by decide

/-- R142: a new beat whose beat time is the one in which a deadline passes: issued ahead of the wedge it is owed with the
rest; behind the wedge it is not issued, and its entry waits. -/
theorem test_wedge_and_new_beat :
    let e := { entry (req .read 0x6000 1 []) .waiting with id := 8 }
    let s := (held [entry (req .write 0x6000 1 [9]) .issued, e]).setMem
      { up.mem with outstanding := [beat .write (some 1)] }
    let look := fun t : State => (t.mem.owed, (t.port 1).queue.map Entry.state, t.memBeat.isSome, t.sched.budget)
    let both := fun i j : Instr => after (0, [], false, 0) look (exec j (after s id (exec i s)))
    both .issueDecision .wedge = (2, [.ready .timeout, .ready .timeout], true, 15) ∧
      both .wedge .issueDecision = (1, [.ready .timeout, .waiting], false, 15) := by decide

/-- R149: a second SYNC_EARLY merges into the first. -/
theorem test_sync_early_merges :
    (((NoticeQueue.reset.raise 0 .syncEarly 3).raise 0 .syncEarly 4).records).map
      (fun r => (r.frame, r.repeats)) = [(3, 2)] := by decide

/-- R151: with flag 3 of NOTICE_MASK set a WEDGED record does not assert the line. -/
theorem test_masked_kind_leaves_the_line : (NoticeQueue.reset.raise 8 (.wedged 1) 3).line = false := by decide

/-- R41: the first frame start after reset. -/
theorem test_release_starts_frame_1 :
    after (0, none) (fun t => (t.sched.frameNumber, t.sched.record)) (exec (.resetNReleased false) State.reset) =
      (1, some (.pool 16)) := by decide

/-- R174: READ_GATE in that frame. -/
theorem test_readGate_bytes :
    buffer (.readGate 0) up =
      [0, 0x11, 1, 0, 16, 0, 0, 0, 0, 0, 0, 0, 0, 0, 0, 1] ++ List.replicate 25 0 := by decide

/-! ### Witnesses: states and operands that meet the hypotheses of each statement -/

/-- StepRunsTheFrontCommand, ResetStateMeetsEveryInvariant, MaintenanceWindows, IssueHeadAndReadyTest,
AcceptanceChecksInOrder, PinResetSetsEveryBlock and RaisedNoticeMergesAppendsOrDrops have no hypothesis to meet, or say
only when a clause applies; the first command of a run from reset is one instance. -/
theorem test_witness_first_step :
    step { State.reset with pending := [.resetNReleased false] } =
      exec (.resetNReleased false) { State.reset with pending := [] } := rfl

theorem test_witness_ExecLeavesTheQueueAlone : ∃ t, exec .maintReqAsserted up = .next t := ⟨_, rfl⟩

theorem test_witness_EveryWellFormedCommandCompletes :
    (Instr.writeSetting 10 0 0).wf = true ∧ exec (.badCommand []) up = .refused .notThisFrame := by
  constructor
  · decide
  · rfl

/-- A state in which every invariant holds and a step is taken. -/
def stepping : State := up.setPending [.maintReqAsserted]

theorem test_witness_step : ∃ t, step stepping = .next t := ⟨_, rfl⟩

theorem test_witness_FrameLaws : FrameInv stepping := by
  refine ⟨?_, ?_, ?_, ?_, ?_, ?_, ?_, ?_, ?_⟩ <;> decide

theorem test_witness_FrameNumber : FrameCountInv stepping := by decide

theorem test_witness_MemoryPathLaws : PathInv stepping := by
  refine ⟨?_, ?_, ?_, ?_, ?_, ?_, ?_, ?_, ?_⟩ <;> decide

/-- With a link in the table. -/
theorem test_witness_LinkTableLaws : LinkInv (stepping.setLinks [link 1 0x6000]) := by
  refine ⟨?_, ?_, ?_, ?_, ?_, ?_, ?_, ?_⟩ <;> decide

/-- With an entry in a queue. -/
theorem test_witness_PortLaws :
    PortsInv ((held [entry (req .read 0 1 []) .waiting]).setPending [.maintReqAsserted]) ∧
      ∃ t, step ((held [entry (req .read 0 1 []) .waiting]).setPending [.maintReqAsserted]) = .next t := by
  refine ⟨?_, _, rfl⟩
  decide

/-- With an atomic update in progress, its read beat outstanding, and a WRITE issued before it. -/
def tied : State :=
  let a := { newEntry 1 (req .write 0x6000 1 [9]) .issued with nextBeat := 1 }
  let b := newEntry 7 (req .boundedAdd 0x6000 1 [25, 100]) .partly
  (((held [a, b]).setMem
      { up.mem with outstanding := [{ beat .write none with entry := 1, serial := 2 }, beat .atomicRead none] }).setAtomic
    (some (update .reading))).setNextId 8

theorem test_witness_QueueLaws : PathInv tied ∧ QueueInv tied := by
  refine ⟨?_, ?_⟩
  · refine ⟨?_, ?_, ?_, ?_, ?_, ?_, ?_, ?_, ?_⟩ <;> decide
  · refine ⟨?_, ?_, ?_, ?_, ?_, ?_, ?_, ?_, ?_, ?_, ?_⟩ <;> decide

theorem test_witness_QueueLaws_step : ∃ t, step (tied.setPending [.memoryResponse .ok 0]) = .next t := ⟨_, rfl⟩

/-- With a record in the queue. -/
theorem test_witness_NoticeLaws : NoticeInv (raise .syncEarly stepping) := by
  refine ⟨?_, ?_, ?_, ?_⟩ <;> decide

theorem test_witness_TablesChange : ∃ t, exec (.copyActive 0) up = .next t ∧ t.shadow = t.active := ⟨_, rfl, rfl⟩

/-- A frame of a command with one fill byte. -/
theorem test_witness_ManagementFrames :
    (Instr.readGate 1).wf = true ∧ encodeFrame (.readGate 1) = some (bitsOfBytes [0x71, 0]) := by decide

/-- A WRITE of 31 phases, the most there can be. -/
theorem test_witness_RequestPhases :
    (Instr.write 0 2 0 (List.replicate 31 0)).wf = true ∧
      encodeRequest (.write 0 2 0 (List.replicate 31 0)) =
        some (0, ⟨true, false, false, false, 2, 31, 0⟩, List.replicate 31 0) ∧
      (decodeRequest 0 ⟨true, false, false, false, 2, 31, 0⟩ (List.replicate 31 0)).isSome = true := by decide

/-- Frames at the edges of the cases of R163: 1, 7 and 9 bits; fill; a spoilt fill; an unknown code; a code one byte
short, exactly long, with fill, with a spoilt fill. -/
theorem test_witness_FrameClasses :
    classifyFrame [true] = .badFrame 0 ∧ classifyFrame (List.replicate 7 true) = .badFrame 0 ∧
      classifyFrame (byteBits 0x71 ++ [true]) = .badFrame 0x71 ∧ classifyFrame (bitsOfBytes [0]) = .fill 1 ∧
      classifyFrame (bitsOfBytes [0, 1]) = .badFrame 0 ∧ classifyFrame (bitsOfBytes [0x72]) = .badCommand 0x72 ∧
      classifyFrame (bitsOfBytes [0x33]) = .badFrame 0x33 ∧
      classifyFrame (bitsOfBytes [0x33, 5]) = .command 0x33 [5] 0 ∧
      classifyFrame (bitsOfBytes [0x33, 5, 0]) = .command 0x33 [5] 1 ∧
      classifyFrame (bitsOfBytes [0x33, 5, 1]) = .badFrame 0x33 := by decide

theorem test_witness_Listening : Listening up := by decide

theorem test_witness_FramesThatExecuteNothing :
    Listening up ∧ classifyFrame [true] = .badFrame 0 ∧ classifyFrame (bitsOfBytes [9]) = .badCommand 9 := by decide

/-- One frame of each class. -/
theorem test_witness_EveryFrameIsAnswered :
    Listening up ∧ Instr.emptyFrame.wf = true ∧ encodeFrame .emptyFrame = some [] ∧
      (Instr.fillFrame 1).wf = true ∧ encodeFrame (.fillFrame 1) = some (bitsOfBytes [0]) ∧
      (Instr.badFrame [true]).wf = true ∧ encodeFrame (.badFrame [true]) = some [true] ∧
      (Instr.badCommand (bitsOfBytes [9])).wf = true ∧
      encodeFrame (.badCommand (bitsOfBytes [9])) = some (bitsOfBytes [9]) ∧
      (Instr.stop 0).wf = true ∧ encodeFrame (.stop 0) = some (bitsOfBytes [0x21]) := by decide

theorem test_witness_EveryFrameIsAnswered_next : ∃ t, exec (.stop 0) up = .next t := ⟨_, rfl⟩

/-- While RESET_N is asserted, and with a frame being discarded after its release. -/
theorem test_witness_FramesIgnored :
    (Instr.stop 0).wf = true ∧ encodeFrame (.stop 0) = some (bitsOfBytes [0x21]) ∧ State.reset.resetAsserted = true ∧
      (up.setMgmt { up.mgmt with frame := .discarding }).resetAsserted = false ∧
      (up.setMgmt { up.mgmt with frame := .discarding }).mgmt.frame = .discarding := by decide

/-- Numbers 0, 9 and 10, and the edges of every setting's range. -/
theorem test_witness_Settings :
    (∀ p ∈ (2, 1) :: (4, 16) :: (List.range 10).zip [1, 65535, 2, 255, 64, 12, 4095, 255, 255, 254],
        SettingRange p.1 p.2) ∧
      ∀ p ∈ (2, 0) :: (10, 0) :: (List.range 10).zip [2, 0, 3, 256, 48, 13, 4096, 256, 256, 255],
        ¬SettingRange p.1 p.2 := by decide

theorem test_witness_Settings_numbers : Listening up ∧ (9 : Byte).toNat ≤ 9 ∧ 9 < (10 : Byte).toNat := by decide

theorem test_witness_PlainSettings :
    Listening up ∧ 1 ≤ (1 : Half).toNat ∧ (255 : Half).toNat ≤ 255 ∧ (12 : Half).toNat ≤ 12 ∧
      (4095 : Half).toNat ≤ 4095 := by decide

/-- The four scheduler states, with both values. -/
theorem test_witness_WriteSyncMode :
    Listening up ∧ (0 : Half).toNat ≤ 1 ∧ (1 : Half).toNat ≤ 1 ∧ up.sched.state = .running ∧
      Listening (idle .stopped none) ∧ (idle .stopped none).sched.state = .stopped ∧
      Listening (idle .gap (some 5)) ∧ (idle .gap (some 5)).sched.state = .gap ∧
      (up.setSched { up.sched with state := .draining }).sched.state = .draining := by decide

/-- LINK_LIMIT lowered with two links of port 1, raised and unchanged; GRANULE changed and unchanged; the edges of NOTICE_MASK. -/
theorem test_witness_SettingsWithSideEffects :
    let two := (up.setLinks [link 1 0x6000, link 5 0x6000, link 1 0x6020]).setSettings { up.settings with linkLimit := 2 }
    LinksDistinct two.links ∧ Listening two ∧ two.settings.linkLimit = 2 ∧ (1 : Half).toNat = 1 ∧ (2 : Half).toNat = 2 ∧ Listening up ∧
      up.settings.linkLimit = 1 ∧ (16 : Half).toNat ≠ up.settings.granule ∧ (64 : Half).toNat = 64 ∧
      (32 : Half).toNat = up.settings.granule ∧ (254 : Half).toNat ≤ 255 ∧ (254 : Half).toNat % 2 = 0 := by decide

/-- Indices 0 and 31, lengths 1 and 64, ports 0 and 7; and each argument one over. -/
theorem test_witness_WriteSlot :
    Listening up ∧ up.sched.commit = .none ∧ (31 : Byte).toNat ≤ 31 ∧ 1 ≤ (1 : Byte).toNat ∧ (64 : Byte).toNat ≤ 64 ∧
      (7 : Port).val = (7 : Byte).toNat ∧ (0 : Port).val = (0 : Byte).toNat ∧ (1 : Byte).toNat ≤ 1 ∧
      ¬(32 : Byte).toNat ≤ 31 ∧ ¬(65 : Byte).toNat ≤ 64 ∧ ¬1 ≤ (0 : Byte).toNat ∧ 2 < (3 : Byte).toNat ∧
      7 < (8 : Byte).toNat ∧ 1 < (2 : Byte).toNat := by decide

/-- FRAME_LEN 0, 1, 32 and 33; a commit pending and none. -/
theorem test_witness_ShadowEdits :
    let busy := up.setSched { up.sched with commit := .pending }
    Listening up ∧ up.sched.commit = .none ∧ Listening busy ∧ busy.sched.commit = .pending ∧ (0 : Byte).toNat = 0 ∧
      1 ≤ (1 : Byte).toNat ∧ (32 : Byte).toNat ≤ 32 ∧ 32 < (33 : Byte).toNat := by decide

theorem test_witness_ReadSlot :
    Listening up ∧ (1 : Byte).toNat ≤ 1 ∧ 1 < (2 : Byte).toNat ∧ (31 : Byte).toNat = (31 : Fin 32).val ∧
      31 < (32 : Byte).toNat := by decide

theorem test_witness_CommitAndCancel :
    let busy := up.setSched { up.sched with commit := .pending }
    Listening (idle .stopped none) ∧ (idle .stopped none).sched.commit = .none ∧
      (idle .stopped none).sched.state = .stopped ∧ Listening up ∧ up.sched.state ≠ .stopped ∧ Listening busy ∧
      busy.sched.commit = .pending := by decide

/-- STOPPED under both modes, RUNNING, GAP and DRAINING. -/
theorem test_witness_StartAndStop :
    let inner := (idle .stopped none).setSched { (idle .stopped none).sched with syncInForce := .internal }
    Listening inner ∧ inner.sched.state = .stopped ∧ inner.sched.syncInForce = .internal ∧
      Listening (idle .stopped none) ∧ (idle .stopped none).sched.syncInForce = .external ∧ Listening up ∧
      up.sched.state = .running ∧ Listening (idle .gap (some 5)) ∧ (idle .gap (some 5)).sched.state = .gap ∧
      (up.setSched { up.sched with state := .draining }).sched.state = .draining := by decide

theorem test_witness_SyncPulses :
    (idle .gap (some 0)).resetAsserted = false ∧ (idle .gap (some 0)).sched.state = .gap ∧
      (idle .gap (some 0)).sched.timer = some 0 ∧ beatCanPass (idle .gap (some 1)) = true ∧
      (idle .gap (some 1)).sched.state = .gap ∧ (idle .gap (some 1)).sched.timer = some 1 ∧ up.resetAsserted = false ∧ up.sched.state = .running ∧
      State.reset.resetAsserted = true ∧ (idle .stopped none).sched.state = .stopped := by decide

/-- A slot that has run out: below the last slot, at the last slot under both modes, and in DRAINING; and the last beat time
of a frame. -/
theorem test_witness_SlotEnd :
    let out := up.setSched { up.sched with budget := 0 }
    let two := out.setTables { out.active with frameLen := 2 } out.shadow
    let ext := out.setSettings { out.settings with syncMode := .external }
    let drain := out.setSched { out.sched with state := .draining }
    (out.resetAsserted = false ∧ out.sched.record.isSome = true ∧ out.sched.budget = 0) ∧
      (two.resetAsserted = false ∧ two.sched.record.isSome = true ∧ two.sched.budget = 0 ∧ two.sched.state = .running ∧
        two.sched.slot.val + 1 < two.active.frameLen ∧ two.active.frameLen ≤ 32) ∧
      (out.sched.state = .running ∧ out.active.frameLen ≤ out.sched.slot.val + 1 ∧ out.settings.syncMode = .internal) ∧
      (ext.sched.state = .running ∧ ext.active.frameLen ≤ ext.sched.slot.val + 1 ∧ ext.settings.syncMode = .external ∧
        ext.sched.record.isSome = true ∧ ext.sched.budget = 0 ∧ ext.resetAsserted = false) ∧
      (drain.sched.state = .draining ∧ drain.sched.record.isSome = true ∧ drain.sched.budget = 0 ∧
        drain.resetAsserted = false) ∧
      (lastBeat.resetAsserted = false ∧ lastBeat.sched.record.isSome = true ∧ lastBeat.sched.budget = 1 ∧
        beatCanPass lastBeat = true ∧ lastBeat.sched.state = .running ∧
        lastBeat.active.frameLen ≤ lastBeat.sched.slot.val + 1 ∧ lastBeat.settings.syncMode = .internal) := by decide

/-- A port with a head, and one without. -/
theorem test_witness_IssueHead :
    let s := held [entry (req .linkDrop 0 1 []) (.ready .done), entry (req .swap 0 1 [1]) .waiting]
    issueHead (s.port 1) = some (entry (req .swap 0 1 [1]) .waiting) ∧ issueHead (s.port 2) = none ∧
      portReady s 2 1 = true ∧ portReady s 1 1 = false := by decide

theorem test_witness_OneBeatTime : beatCanPass up = true := by decide

/-- Fifteen beats outstanding is the most under which a beat issues; a budget of the remaining beats, and one less. -/
theorem test_witness_BurstHead :
    let e := entry (req .read 0 2 []) .waiting
    let s := (held [e]).setMem { up.mem with outstanding := List.replicate 15 (beat .read none) }
    let tight := s.setSched { s.sched with budget := 2 }
    let short := (s.setSched { s.sched with budget := 1 }).setSettings { s.settings with splitOk := 0 }
    MayIssue s 1 e ∧ s.settings.splitOk.getLsbD 1 = true ∧ MayIssue tight 1 e ∧
      e.req.beats - e.nextBeat ≤ tight.sched.budget ∧ MayIssue short 1 e ∧ short.settings.splitOk.getLsbD 1 = false ∧
      ¬e.req.beats - e.nextBeat ≤ short.sched.budget := by decide

theorem test_witness_BurstHead_write :
    MayIssue (held [entry (req .write 0 2 [1, 2]) .waiting]) 1 (entry (req .write 0 2 [1, 2]) .waiting) := by decide

/-- A LINKED READ head that opens, and one that refreshes. -/
theorem test_witness_LinkedRead :
    let e := entry (req .linkedRead 0x6004 1 []) .waiting
    MayIssue (held [e]) 1 e ∧ MayIssue ((held [e]).setLinks [link 1 0x6000]) 1 e := by decide

theorem test_witness_LinkedRead_inv :
    LinkInv ((held [entry (req .linkedRead 0x6004 1 []) .waiting]).setLinks [link 1 0x6000]) := by
  refine ⟨?_, ?_, ?_, ?_, ?_, ?_, ?_, ?_⟩ <;> decide

/-- A CONDITIONAL WRITE head without a link, with one of its width, and with one of another. -/
theorem test_witness_ConditionalWrite :
    let e := entry (req .conditionalWrite 0x6004 1 [9]) .waiting
    let mine := fun l : Link => l.holder == 1 && l.base == granuleBase 32 e.req.addr
    let wide := { link 1 0x6000 with width := 8 }
    MayIssue (held [e]) 1 e ∧ (held [e]).links.find? mine = none ∧ MayIssue ((held [e]).setLinks [link 1 0x6000]) 1 e ∧
      ((held [e]).setLinks [link 1 0x6000]).links.find? mine = some (link 1 0x6000) ∧ (link 1 0x6000).width = 4 ∧
      MayIssue ((held [e]).setLinks [wide]) 1 e ∧ ((held [e]).setLinks [wide]).links.find? mine = some wide ∧
      wide.width ≠ 4 := by decide

theorem test_witness_ConditionalWriteSucceeds :
    let s := (held [entry (req .conditionalWrite 0x6004 1 [9]) .waiting]).setLinks [link 1 0x6000]
    after false (fun t => (t.port 1).condOk != (s.port 1).condOk) (exec .issueDecision s) = true := by decide

/-- An atomic head with two beat times left, and with one. -/
theorem test_witness_AtomicHead :
    let e := entry (req .swap 0x6000 1 [5]) .waiting
    let two := (held [e]).setSched { (held [e]).sched with budget := 2 }
    let one := (held [e]).setSched { (held [e]).sched with budget := 1 }
    MayIssue two 1 e ∧ 2 ≤ two.sched.budget ∧ MayIssue one 1 e ∧ ¬2 ≤ one.sched.budget := by decide

theorem test_witness_OwedAtomicWrite :
    let s := up.setAtomic (some (update (.writeOwed 90 100 (some true))))
    beatCanPass s = true ∧ s.mem.state = .ready ∧ s.mem.outstanding.length < 16 ∧
      s.atomic = some (update (.writeOwed 90 100 (some true))) := by decide

theorem test_witness_WriteBeatLeavesNoLink :
    let s := (held [entry (req .write 0x6000 1 [9]) .waiting]).setLinks [link 5 0x6000]
    beatCanPass s = true ∧
      after none (fun t => t.memBeat) (exec .issueDecision s) =
        some { write := true, addr := 0x6000, bytes := 4, element := some 9 } ∧
      s.settings.granule = 32 := by decide

theorem test_witness_Response :
    (flying [beat .read (some 3)]).resetAsserted = false ∧
      (flying [beat .read (some 3)]).mem.outstanding = [beat .read (some 3)] ∧
      (beat .read (some 3)).kind ≠ .atomicRead := by decide

/-- A sum below 0, of 0, of the ceiling, and above it; and a SWAP. -/
theorem test_witness_AtomicRead :
    let s := (flying [beat .atomicRead none]).setAtomic (some (update .reading))
    s.resetAsserted = false ∧ s.mem.outstanding = [beat .atomicRead none] ∧
      (beat .atomicRead none).kind = .atomicRead ∧ s.atomic = some (update .reading) ∧
      ((5 : Word).toNat : Int) + (-8 : Word).toInt < 0 ∧ ((5 : Word).toNat : Int) + (-5 : Word).toInt = 0 ∧
      ((90 : Word).toNat : Int) + (10 : Word).toInt = (100 : Word).toNat ∧
      ((100 : Word).toNat : Int) < (90 : Word).toNat + (25 : Word).toInt ∧
      (flying [beat .atomicRead none]).setAtomic (some { update .reading with op := .swap 5 }) ≠ s := by decide

theorem test_witness_UnmatchedResponses :
    let owing := up.setMem { up.mem with state := .wedged, owed := 1 }
    State.reset.resetAsserted = true ∧ owing.resetAsserted = false ∧ owing.mem.outstanding = [] ∧ 0 < owing.mem.owed ∧
      up.resetAsserted = false ∧ up.mem.outstanding = [] ∧ up.mem.owed = 0 := by decide

theorem test_witness_Wedge :
    (flying [beat .read (some 1)]).resetAsserted = false ∧ (flying [beat .read (some 1)]).mem.state = .ready ∧
      beatCanPass (flying [beat .read (some 1)]) = true ∧
      (flying [beat .read (some 1)]).mem.outstanding.any (fun b => b.deadline == some 1) = true ∧
    (flying [beat .read (some 0)]).resetAsserted = false ∧ (flying [beat .read (some 0)]).mem.state = .ready ∧
      (flying [beat .read (some 0)]).mem.outstanding.any (fun b => b.deadline == some 0) = true := by decide

theorem test_witness_Recover :
    let none_owed := up.setMem { up.mem with state := .wedged }
    let one_owed := up.setMem { up.mem with state := .wedged, owed := 1 }
    Listening none_owed ∧ none_owed.mem.state = .wedged ∧ none_owed.mem.owed = 0 ∧ Listening one_owed ∧
      one_owed.mem.state = .wedged ∧ 0 < one_owed.mem.owed ∧ Listening up ∧ up.mem.state = .ready := by decide

/-- OPEN with three and with four entries, HALTING, DISABLED, RESETTING, in reset, and with a request withheld. -/
theorem test_witness_Requests :
    let e := entry (req .read 0 1 []) .waiting
    let r := req .read 0 1 []
    let off := up.setPort 1 { PortRec.reset with state := .disabled, enabled := false }
    let halt := up.setPort 1 { PortRec.reset with state := .halting, enabled := false }
    let kept := up.setPort 1 { PortRec.reset with presented := some r }
    requestOf (.read 1 2 1 0) = some (1, r) ∧ (held [e, e, e]).resetAsserted = false ∧
      ((held [e, e, e]).port 1).presented = none ∧ ((held [e, e, e]).port 1).state = .opened ∧
      ((held [e, e, e]).port 1).queue.length < 4 ∧ 4 ≤ ((held [e, e, e, e]).port 1).queue.length ∧
      (off.port 1).state = .disabled ∧ (halt.port 1).state = .halting ∧
      ((up.setPort 1 { PortRec.reset with state := .resetting }).port 1).state = .resetting ∧
      State.reset.resetAsserted = true ∧ (kept.port 1).presented = some r ∧ kept.resetAsserted = false ∧
      (kept.port 1).state = .opened ∧ (kept.port 1).queue.length < 4 := by decide

theorem test_witness_Delivery :
    let e := entry (req .write 0 1 [9]) (.ready .done)
    (held [e]).resetAsserted = false ∧ ((held [e]).port 1).state ≠ .resetting ∧ ((held [e]).port 1).queue = [e] ∧
      e.response.isSome = true := by decide

/-- A READ that streams: its first element is matched, and it stays the oldest entry. -/
theorem test_witness_Responses_streamed :
    let e := { entry (req .read 0x6000 2 []) .partly with nextBeat := 1, data := [] }
    let s := ((held [e]).setMem { up.mem with outstanding := [beat .read none] }).setNextId 8
    after [] (fun t => streamed (t.port 1)) (exec (.memoryResponse .ok 5) s) = [5] ∧
      after none (fun t => (t.port 1).queue.head?.map fun f => (f.id, f.marked)) (exec (.memoryResponse .ok 5) s) =
        some (7, false) ∧
      (wedgedEntry e).map Entry.data = some [0, 0] := by decide

theorem test_witness_Responses_inv :
    QueueInv (((held [entry (req .read 0x6000 2 []) .partly]).setMem
      { up.mem with outstanding := [beat .read none] }).setNextId 8) := by
  refine ⟨?_, ?_, ?_, ?_, ?_, ?_, ?_, ?_, ?_, ?_, ?_⟩ <;> decide

/-- Every state of an entry. -/
theorem test_witness_Responses :
    (entry (req .read 0 1 []) .issued).state = .issued ∧ (entry (req .read 0 1 []) (.refusal .align)).state =
      .refusal .align ∧ (entry (req .read 0 1 []) (.ready .memerr)).state = .ready .memerr := by decide

theorem test_witness_LinkDrop :
    let s := held [entry (req .read 0 1 []) .issued, entry (req .linkDrop 0 1 []) .waiting]
    s.resetAsserted = false ∧ dropDue (s.port 1).queue = true := by decide

theorem test_witness_PortReset :
    let s := up.setPort 1 { PortRec.reset with state := .resetting }
    up.resetAsserted = false ∧ (up.port 7).state ≠ .resetting ∧ Listening up ∧ (7 : Byte).toNat = (7 : Port).val ∧
      7 < (8 : Byte).toNat ∧ Listening s ∧ (s.port 1).state = .resetting ∧ State.reset.resetAsserted = true := by decide

/-- A port that can leave RESETTING; with its line asserted it cannot. -/
theorem test_witness_PortResetEnds :
    let s := up.setPort 1 { PortRec.reset with state := .resetting }
    s.resetAsserted = false ∧ (s.port 1).state = .resetting ∧ (s.port 1).prst = false ∧
      (∀ b ∈ s.mem.outstanding, b.port ≠ 1) ∧ s.atomic.any (fun a => a.port == 1) = false ∧
      ((s.setPort 1 { s.port 1 with prst := true }).port 1).prst = true := by decide

/-- Arguments at the edges of the port numbers, of the link positions and of PURGE_LINKS. -/
theorem test_witness_port_arguments :
    Listening up ∧ (0 : Byte).toNat = (0 : Port).val ∧ (7 : Byte).toNat = (7 : Port).val ∧ 7 < (8 : Byte).toNat ∧
      (11 : Byte).toNat ≤ 11 ∧ 11 < (12 : Byte).toNat ∧ (255 : Byte).toNat = 255 ∧ (254 : Byte).toNat < 255 := by decide

/-- An empty notice queue, and one with a record. -/
theorem test_witness_Notices :
    Listening up ∧ up.notices.records = [] ∧ Listening (raise .syncEarly up) ∧
      (raise .syncEarly up).notices.records.head?.isSome = true := by decide

theorem test_witness_ClearState : Listening (raise .syncEarly up) := by decide

/-- The assertion of RESET_N, the state after it and the state right after reset. -/
theorem test_witness_Release :
    (∃ s, exec .resetNAsserted up = .next s ∧ HeldInReset s) ∧ HeldInReset State.reset := by
  refine ⟨⟨_, rfl, ?_⟩, ?_⟩ <;> decide

/-- A happening that is not due, for each clause. -/
theorem test_witness_NotDue :
    up.resetAsserted = false ∧ State.reset.resetAsserted = true ∧ (idle .gap (some 5)).sched.record = none ∧
      (up.sched.budget ≠ 0 ∧ up.sched.budget ≠ 1 ∧ lastBeat.sched.budget ≠ 0 ∧
        (lastBeat.setSettings { lastBeat.settings with syncMode := .external }).settings.syncMode = .external) ∧
      up.sched.state ≠ .gap ∧ (idle .gap (some 5)).sched.timer ≠ some 0 ∧
      (up.setMem { up.mem with state := .wedged }).mem.state = .wedged ∧
      (∀ b ∈ up.mem.outstanding, b.deadline ≠ some 0) ∧ (∀ b ∈ up.mem.outstanding, b.deadline ≠ some 1) ∧
      beatCanPass State.reset = false ∧
      ((up.setSched { up.sched with budget := 0 }).sched.record.isSome = true ∧
        (up.setSched { up.sched with budget := 0 }).sched.budget = 0) ∧
      ((idle .gap (some 0)).sched.state = .gap ∧ (idle .gap (some 0)).sched.timer = some 0) ∧
      ((flying [beat .read (some 0)]).mem.state = .ready ∧
        ∃ b ∈ (flying [beat .read (some 0)]).mem.outstanding, b.deadline = some 0) ∧
      up.atomic.any (fun a => a.phase != .reading) = false ∧
      ((up.port 1).queue.head?.bind Entry.response) = none ∧ dropDue (up.port 1).queue = false := by decide

end Sys2Proof.Tests
end

section
/-! PROOF. The shadow edits and READ_SLOT: SET_FRAME_LEN, COPY_ACTIVE, the BUSY of a pending commit, and the records of
both tables as they are returned (R2, R8, R12 to R14). -/

namespace Sys2Proof.Proofs

open Sys2Proof Sys2Proof.Machine Sys2Proof.Safety

/-! ### The frames that carry the table commands -/

theorem exec_writeSlot (index kind owner length donate : Byte) (fill : Nat) (s : State) :
    exec (.writeSlot index kind owner length donate fill) s =
      .next (command 0x10 [index, kind, owner, length, donate] fill
        (shadowEdit (writeSlotEdit index kind owner length donate)) s) := rfl

theorem exec_setFrameLen (length : Byte) (fill : Nat) (s : State) :
    exec (.setFrameLen length fill) s =
      .next (command 0x12 [length] fill (shadowEdit (setFrameLenEdit length)) s) := rfl

theorem exec_copyActive (fill : Nat) (s : State) :
    exec (.copyActive fill) s =
      .next (command 0x15 [] fill (shadowEdit fun u => shadowReply (u.setTables u.active u.active)) s) := rfl

/-! ### Shadow edits -/

theorem shadowEdit_of_pending {s : State} (hc : s.sched.commit = .pending) (edit : State → MgmtReply) :
    shadowEdit edit s = refuse s .busy := if_pos hc

theorem shadowEdit_of_none {s : State} (hc : s.sched.commit = .none) (edit : State → MgmtReply) :
    shadowEdit edit s = edit s := if_neg (by simp [hc])

/-- FRAME_LEN and slot time of the shadow, in the bytes of R162. -/
theorem shadowReply_eq (s : State) :
    shadowReply s = accept s (BitVec.ofNat 8 s.shadow.frameLen :: twoBytes (slotTimeOf s.shadow)) := by
  unfold shadowReply
  rw [be16N_eq, slotTime_eq, byteN]

/-- A length of R12 is stored, and answered with the slot time it makes. -/
theorem setFrameLenEdit_of_inRange {length : Byte} (h : 1 ≤ length.toNat ∧ length.toNat ≤ 32) (s : State) :
    setFrameLenEdit length s =
      accept (s.setTables s.active { s.shadow with frameLen := length.toNat })
        (length :: twoBytes (slotTimeOf { s.shadow with frameLen := length.toNat })) := by
  unfold setFrameLenEdit
  rw [if_pos h, shadowReply_eq, setTables_shadow, BitVec.ofNat_toNat, BitVec.setWidth_eq]

theorem setFrameLenEdit_of_outOfRange {length : Byte} (h : length.toNat = 0 ∨ 32 < length.toNat) (s : State) :
    setFrameLenEdit length s = refuse s .badArgument := if_neg (by omega)

/-- R8: with a commit pending, the frame of a shadow edit is answered BUSY, whatever the edit is. -/
theorem command_shadowEdit_busy {s : State} (h : Listening s) (hc : s.sched.commit = .pending) (code : Byte)
    (args : List Byte) (fill : Nat) (edit : State → MgmtReply) :
    command code args fill (shadowEdit edit) s =
      { s with mgmt := answered s code (8 * (args.length + 1 + fill)) .busy [] } :=
  command_refuse h code args fill _ .busy (shadowEdit_of_pending (s := clocked _ s) hc edit)

/-- With no commit pending, the frame of an edit that stores a shadow table changes that table and answers. -/
theorem command_shadowEdit_stores {s : State} (h : Listening s) (hc : s.sched.commit = .none) (code : Byte)
    (args : List Byte) (fill : Nat) {edit : State → MgmtReply} {table : SlotTable} {data : List Byte}
    (he : edit (clocked (8 * (args.length + 1 + fill)) s) =
      accept ((clocked (8 * (args.length + 1 + fill)) s).setTables s.active table) data) :
    command code args fill (shadowEdit edit) s =
      { s with shadow := table, mgmt := answered s code (8 * (args.length + 1 + fill)) .accepted data } := by
  have hr := (shadowEdit_of_none (s := clocked (8 * (args.length + 1 + fill)) s) hc edit).trans he
  rw [command_spec h code args fill _ (by rw [hr]; rfl), hr]
  rfl

/-- With no commit pending, the frame of an edit that refuses its arguments is refused. -/
theorem command_shadowEdit_refuses {s : State} (h : Listening s) (hc : s.sched.commit = .none) (code : Byte)
    (args : List Byte) (fill : Nat) {edit : State → MgmtReply} {status : MgmtStatus}
    (he : ∀ u, edit u = refuse u status) :
    command code args fill (shadowEdit edit) s =
      { s with mgmt := answered s code (8 * (args.length + 1 + fill)) status [] } :=
  command_refuse h code args fill _ status ((shadowEdit_of_none (s := clocked _ s) hc edit).trans (he _))

/-- Settles O23: each clause is one case of the shadow edit, on the frame that carries the command. -/
theorem shadowEditsAndTheirRefusals : Obligations.ShadowEditsAndTheirRefusals := by
  intro s index kind owner length donate fill h short
  refine ⟨fun hc hl => ?inRange, fun hc hl => ?outOfRange, fun hc => ?copied, fun hc => ⟨?_, ?_, ?_⟩⟩
  case inRange =>
    rw [exec_setFrameLen]
    exact congrArg _ (command_shadowEdit_stores h hc 0x12 [length] fill (setFrameLenEdit_of_inRange hl _))
  case outOfRange =>
    rw [exec_setFrameLen]
    exact congrArg _ (command_shadowEdit_refuses h hc 0x12 [length] fill (setFrameLenEdit_of_outOfRange hl))
  case copied =>
    rw [exec_copyActive]
    exact congrArg _ (command_shadowEdit_stores h hc 0x15 [] fill (shadowReply_eq _))
  · rw [exec_writeSlot]
    exact congrArg _ (command_shadowEdit_busy h hc 0x10 [index, kind, owner, length, donate] fill _)
  · rw [exec_setFrameLen]
    exact congrArg _ (command_shadowEdit_busy h hc 0x12 [length] fill _)
  · rw [exec_copyActive]
    exact congrArg _ (command_shadowEdit_busy h hc 0x15 [] fill _)

/-! ### READ_SLOT -/

theorem exec_readSlot (table index : Byte) (fill : Nat) (s : State) :
    exec (.readSlot table index fill) s = execReadSlot table index fill s := rfl

/-- The table a selector of READ_SLOT names: 0 the active one, 1 the shadow (R168). -/
def selectedTable (table : Byte) (s : State) : SlotTable := if table.toNat = 0 then s.active else s.shadow

theorem indexArg_of_eq {index : Byte} {j : Fin 32} (h : index.toNat = j.val) : indexArg index = some j := by
  unfold indexArg
  rw [dif_pos (by omega)]
  exact congrArg some (Fin.ext h)

theorem indexArg_of_over {index : Byte} (h : 31 < index.toNat) : indexArg index = none := dif_neg (by omega)

/-- READ_SLOT on a selector and an index that name a record: the record is read from the table selected. -/
theorem exec_readSlot_of_valid {table index : Byte} {j : Fin 32} (ht : table.toNat ≤ 1) (hi : index.toNat = j.val)
    (fill : Nat) (s : State) :
    exec (.readSlot table index fill) s =
      .next (command 0x11 [table, index] fill (fun u => readSlotReply (selectedTable table u) j u) s) := by
  have hsel : table.toNat = 0 ∨ table.toNat = 1 := by omega
  rw [exec_readSlot]
  unfold execReadSlot selectedTable
  rw [indexArg_of_eq hi]
  rcases hsel with h0 | h1
  · simp only [h0, if_pos]
  · simp only [h1, Nat.one_ne_zero, if_false]

/-- READ_SLOT on a selector over 1 or an index over 31 is refused (R14). -/
theorem exec_readSlot_of_invalid {table index : Byte} (h : 1 < table.toNat ∨ 31 < index.toNat) (fill : Nat)
    (s : State) :
    exec (.readSlot table index fill) s =
      .next (command 0x11 [table, index] fill (fun u => refuse u .badArgument) s) := by
  rw [exec_readSlot]
  unfold execReadSlot
  rcases h with ht | hi
  · congr 2
    funext u
    obtain ⟨n, hn⟩ : ∃ n, table.toNat = n + 2 := ⟨table.toNat - 2, by omega⟩
    rw [hn]
    cases indexArg index <;> rfl
  · rw [indexArg_of_over hi]
    rcases table.toNat with _ | _ | n <;> rfl

/-- What READ_SLOT answers on an index byte that names the record, absent fields as zero (R2, R14). -/
theorem readSlotReply_eq {index : Byte} {j : Fin 32} (hi : index.toNat = j.val) (t : SlotTable) (s : State) :
    readSlotReply t j s =
      accept s (index :: (t.slots.get j).bytes ++
        [BitVec.ofNat 8 t.frameLen, if index.toNat < t.frameLen then 1 else 0]) := by
  unfold readSlotReply flag
  rw [← hi]
  simp [byteN]

/-- Settles O24: a selector and an index either name a record, which is answered from the table, or are refused. -/
theorem readSlotReturnsTheRecord : Obligations.ReadSlotReturnsTheRecord := by
  intro s table index fill j h t bytes
  have hbytes : (t.slots.get j).bytes = bytes := by
    simp only [bytes]
    cases t.slots.get j with
    | owned o n d => exact congrArg (fun b => [0, BitVec.ofNat 8 o.val, BitVec.ofNat 8 n, b]) (flag_eq d)
    | pool n => rfl
    | quiet n => rfl
  constructor
  · intro ht hi
    rw [exec_readSlot_of_valid ht hi, ← hbytes]
    exact congrArg _ (command_accept h 0x11 [table, index] fill _ _ (readSlotReply_eq hi _ _))
  · intro hbad
    rw [exec_readSlot_of_invalid hbad]
    exact congrArg _ (command_refuse h 0x11 [table, index] fill _ .badArgument rfl)

end Sys2Proof.Proofs
end

section
/-! PROOF. COMMIT_TABLE and CANCEL_COMMIT (R53 to R55). -/

namespace Sys2Proof.Proofs

open Sys2Proof Sys2Proof.Machine Sys2Proof.Safety

theorem exec_commitTable (fill : Nat) (s : State) :
    exec (.commitTable fill) s = .next (command 0x13 [] fill commitBody s) := rfl

theorem exec_cancelCommit (fill : Nat) (s : State) :
    exec (.cancelCommit fill) s =
      .next (command 0x14 [] fill (fun u => accept (u.setSched { u.sched with commit := .none }) []) s) := rfl

/-- The frame of a command whose reply on the gate is known, and leaves the management port to the framing (R164). -/
theorem command_of_reply {s : State} (h : Listening s) (code : Byte) (args : List Byte) (fill : Nat)
    {body : State → MgmtReply} {r : MgmtReply} (hr : body (clocked (8 * (args.length + 1 + fill)) s) = r)
    (hm : r.state.mgmt = (clocked (8 * (args.length + 1 + fill)) s).mgmt) :
    command code args fill body s =
      { r.state with mgmt := answered s code (8 * (args.length + 1 + fill)) r.status r.data } := by
  subst hr
  exact command_spec h code args fill body hm

/-- Writing the commit state that stands already changes nothing. -/
theorem sched_with_commit_self {x : Scheduler} {c : CommitState} (h : x.commit = c) : { x with commit := c } = x := by
  subst h
  rfl

/-- R54 in STOPPED with no commit pending: the swap of R53, with TABLE_SWAPPED. -/
theorem commitBody_of_stopped {s : State} (hc : s.sched.commit = .none) (hs : s.sched.state = .stopped) :
    commitBody s = accept (raise .tableSwapped (s.setTables s.shadow s.shadow)) [] := by
  have hswap : swapTables s = s.setTables s.shadow s.shadow := by
    unfold swapTables
    rw [sched_with_commit_self hc]
    rfl
  unfold commitBody
  rw [hc, ← hswap]
  exact if_pos hs

/-- R54 with a commit pending, or outside STOPPED: the commit is pending. -/
theorem commitBody_of_deferred {s : State} (h : s.sched.commit = .pending ∨ s.sched.state ≠ .stopped) :
    commitBody s = refuse (s.setSched { s.sched with commit := .pending }) .pending := by
  unfold commitBody
  cases hc : s.sched.commit with
  | pending =>
    rw [sched_with_commit_self hc]
    rfl
  | none =>
    have hs : s.sched.state ≠ .stopped := h.resolve_left (by simp [hc])
    exact if_neg hs

/-- Settles O25: the two outcomes of COMMIT_TABLE, and CANCEL_COMMIT, each on the frame that carries it. -/
theorem commitAndCancel : Obligations.CommitAndCancel := by
  intro s fill h
  refine ⟨fun hc hs => ?swapped, fun hw => ?deferred, ?cancelled⟩
  case swapped =>
    rw [exec_commitTable]
    exact congrArg _ (command_of_reply h 0x13 [] fill (commitBody_of_stopped (s := clocked _ s) hc hs) rfl)
  case deferred =>
    rw [exec_commitTable]
    exact congrArg _ (command_of_reply h 0x13 [] fill (commitBody_of_deferred (s := clocked _ s) hw) rfl)
  case cancelled =>
    rw [exec_cancelCommit]
    exact congrArg _ (command_of_reply h 0x14 [] fill rfl rfl)

end Sys2Proof.Proofs
end

section
/-! PROOF. SYNC_IN and the sync wait timer (R41, R47 to R49, R132). -/

namespace Sys2Proof.Proofs

open Sys2Proof Sys2Proof.Machine Sys2Proof.Safety

/-! ### A SYNC_IN pulse -/

theorem execSyncInPulse_of_reset {s : State} (hr : s.resetAsserted = true) : execSyncInPulse s = .next s := if_pos hr

theorem execSyncInPulse_of_gap {s : State} (hr : s.resetAsserted = false) (hg : s.sched.state = .gap) :
    execSyncInPulse s = .next (frameStart s) := by
  simp [execSyncInPulse, hr, hg]

theorem execSyncInPulse_of_stopped {s : State} (hr : s.resetAsserted = false) (hs : s.sched.state = .stopped) :
    execSyncInPulse s = .next s := by
  simp [execSyncInPulse, hr, hs]

/-- A pulse while a frame runs is early (R49). -/
theorem execSyncInPulse_of_inFrame {s : State} (hr : s.resetAsserted = false)
    (hf : s.sched.state = .running ∨ s.sched.state = .draining) : execSyncInPulse s = .next (earlyPulse s) := by
  rcases hf with hs | hs <;> simp [execSyncInPulse, hr, hs]

/-! ### The sync wait timer -/

theorem exec_issueDecision_of_beatCanPass {s : State} (h : beatCanPass s = true) :
    exec .issueDecision s = .next (beatTime s) := congrArg Host.Outcome.next (if_pos h)

theorem timerDue_iff (s : State) :
    timerDue s = true ↔ s.resetAsserted = false ∧ s.sched.state = .gap ∧ s.sched.timer = some 0 := by
  simp [timerDue, and_assoc]

theorem gapMarkFirstDue_iff (s : State) :
    gapMarkFirstDue s = true ↔ beatCanPass s = true ∧ s.sched.state = .gap ∧ s.sched.timer = some 1 := by
  simp [gapMarkFirstDue, and_assoc]

/-- The timer at 0 in GAP: the missed pulse, and a frame start (R48). -/
theorem execSyncWaitTimerExpiry_of_timerDue {s : State} (h : timerDue s = true) :
    execSyncWaitTimerExpiry s = .next (frameStart (missedPulse s)) := congrArg Host.Outcome.next (if_pos h)

/-- The timer at 1 in GAP: the missed pulse, and the frame mark ahead of the last beat time (R132; log 23). -/
theorem execSyncWaitTimerExpiry_of_gapMarkFirstDue {s : State} (h : gapMarkFirstDue s = true) :
    execSyncWaitTimerExpiry s = .next (gapMarkFirst (missedPulse s)) := by
  obtain ⟨_, _, ht⟩ := (gapMarkFirstDue_iff s).1 h
  rcases execSyncWaitTimerExpiry_cases s with ⟨hdue, _⟩ | ⟨_, _, hmark⟩ | ⟨_, hno, _⟩
  · simp [timerDue_iff, ht] at hdue
  · exact hmark
  · simp [h] at hno

/-- A frame mark makes no timed happening due and puts none off: whether a beat time can pass stays as it is. -/
theorem beatCanPass_of_markTaken {s u : State} (h : MarkTaken s u) : beatCanPass u = beatCanPass s := by
  obtain ⟨_, _, _, hu⟩ := h
  rw [hu]
  rfl

/-- A missed pulse leaves the reset line, the scheduler and the memory port alone. -/
theorem beatCanPass_missedPulse (s : State) : beatCanPass (missedPulse s) = beatCanPass s := rfl

/-- Settles O27: a pulse by the scheduler's state; the timer at 0 as a frame start; the timer at 1 as the mark ahead of the
last beat time, which still passes because the mark makes nothing due. -/
theorem syncPulsesAndTheSyncTimer : Obligations.SyncPulsesAndTheSyncTimer := by
  intro s missed
  refine ⟨fun hr hg => ?inGap, fun hr hf => ?early, fun hn => ?ignored, fun hr hg ht => ?ranOut,
    fun hb hg ht => ?markFirst⟩
  case inGap => exact ⟨frameStart s, execSyncInPulse_of_gap hr hg, frameStart_spec s⟩
  case early => exact execSyncInPulse_of_inFrame hr hf
  case ignored =>
    cases hr : s.resetAsserted with
    | true => exact execSyncInPulse_of_reset hr
    | false => exact execSyncInPulse_of_stopped hr (hn.resolve_left (by simp [hr]))
  case ranOut =>
    have hdue := (timerDue_iff s).2 ⟨hr, hg, ht⟩
    exact ⟨frameStart missed, execSyncWaitTimerExpiry_of_timerDue hdue, frameStart_spec missed⟩
  case markFirst =>
    have hdue := (gapMarkFirstDue_iff s).2 ⟨hb, hg, ht⟩
    obtain ⟨m, hm, hstart⟩ := gapMarkFirst_spec missed
    have hpass : beatCanPass m = true :=
      calc beatCanPass m = beatCanPass missed := beatCanPass_of_markTaken hm
        _ = beatCanPass s := beatCanPass_missedPulse s
        _ = true := hb
    exact ⟨gapMarkFirst missed, execSyncWaitTimerExpiry_of_gapMarkFirstDue hdue, m, beatTime m, hm,
      exec_issueDecision_of_beatCanPass hpass, hstart⟩

end Sys2Proof.Proofs
end

section
/-! PROOF. A LINK DROP takes effect (R72, R93). -/

namespace Sys2Proof.Proofs

open Sys2Proof Sys2Proof.Machine Sys2Proof.Safety

/-! ### The entries of a queue at which LINK DROPs are let through -/

/-- The entry is a LINK DROP that has not taken effect. -/
def awaitsDrop (e : Entry) : Bool := e.req.kind == .linkDrop && e.state == .waiting

theorem awaitsDrop_iff (e : Entry) : awaitsDrop e = true ↔ e.req.kind = .linkDrop ∧ e.state = .waiting := by
  simp [awaitsDrop]

theorem awaitsDrop_of_fullyIssued {e : Entry} (h : e.fullyIssued = true) : awaitsDrop e = false := by
  simp [awaitsDrop, ((fullyIssued_eq_true e).1 h).1]

theorem dropDue_cons_of_fullyIssued {e : Entry} (h : e.fullyIssued = true) (q : List Entry) :
    dropDue (e :: q) = dropDue q := if_pos h

theorem dropDue_cons_of_not_fullyIssued {e : Entry} (h : e.fullyIssued = false) (q : List Entry) :
    dropDue (e :: q) = awaitsDrop e := by
  have hd : dropDue (e :: q) = (decide (e.req.kind = .linkDrop) && decide (e.state = .waiting)) :=
    if_neg (by simp [h])
  rw [hd, Bool.eq_iff_iff, awaitsDrop_iff]
  simp

theorem settleDrops_cons_of_fullyIssued {e : Entry} (h : e.fullyIssued = true) (q : List Entry) :
    settleDrops (e :: q) = e :: settleDrops q := if_pos h

theorem settleDrops_cons_of_awaitsDrop {e : Entry} (h : e.fullyIssued = false) (hd : awaitsDrop e = true)
    (q : List Entry) : settleDrops (e :: q) = { e with state := .ready .done } :: settleDrops q :=
  (if_neg (by simp [h])).trans (if_pos ((awaitsDrop_iff e).1 hd))

theorem settleDrops_cons_of_unissued {e : Entry} (h : e.fullyIssued = false) (hd : awaitsDrop e = false)
    (q : List Entry) : settleDrops (e :: q) = e :: q :=
  (if_neg (by simp [h])).trans (if_neg fun c => by simp [(awaitsDrop_iff e).2 c] at hd)

/-- R93: a LINK DROP is due exactly when one waits behind fully issued entries alone. -/
theorem dropDue_iff (q : List Entry) :
    dropDue q = true ↔
      ∃ front e back, q = front ++ e :: back ∧ awaitsDrop e = true ∧
        ∀ f ∈ front, f.state ≠ .waiting ∧ f.state ≠ .partly := by
  constructor
  · intro h
    induction q with
    | nil => cases h
    | cons e rest ih =>
      cases hf : e.fullyIssued with
      | true =>
        rw [dropDue_cons_of_fullyIssued hf] at h
        obtain ⟨front, d, back, rfl, hd, hfront⟩ := ih h
        exact ⟨e :: front, d, back, rfl, hd, List.forall_mem_cons.2 ⟨(fullyIssued_eq_true e).1 hf, hfront⟩⟩
      | false =>
        rw [dropDue_cons_of_not_fullyIssued hf] at h
        exact ⟨[], e, rest, rfl, h, by simp⟩
  · rintro ⟨front, e, back, rfl, hd, hfront⟩
    induction front with
    | nil =>
      have hf : e.fullyIssued = false := (fullyIssued_eq_false e).2 (.inl ((awaitsDrop_iff e).1 hd).2)
      exact (dropDue_cons_of_not_fullyIssued hf back).trans hd
    | cons f rest ih =>
      obtain ⟨hf, hrest⟩ := List.forall_mem_cons.1 hfront
      exact (dropDue_cons_of_fullyIssued ((fullyIssued_eq_true f).2 hf) _).trans (ih hrest)

/-- What a settling makes of an entry ahead of the first that holds LINK DROPs back. -/
def settledEntry (e : Entry) : Entry := if awaitsDrop e then { e with state := .ready .done } else e

/-- R93: the entries settled are those ahead of the first entry still to be issued that is no LINK DROP. -/
theorem settleDrops_split (q : List Entry) :
    ∃ front back, q = front ++ back ∧
      (∀ f ∈ front, awaitsDrop f = true ∨ (f.state ≠ .waiting ∧ f.state ≠ .partly)) ∧
      (∀ b ∈ back.head?, awaitsDrop b = false ∧ (b.state = .waiting ∨ b.state = .partly)) ∧
      settleDrops q = front.map settledEntry ++ back := by
  induction q with
  | nil => exact ⟨[], [], rfl, by simp, by simp, rfl⟩
  | cons e rest ih =>
    obtain ⟨front, back, hq, hfront, hback, hsettled⟩ := ih
    cases hf : e.fullyIssued with
    | true =>
      refine ⟨e :: front, back, by rw [hq]; rfl,
        List.forall_mem_cons.2 ⟨.inr ((fullyIssued_eq_true e).1 hf), hfront⟩, hback, ?_⟩
      rw [settleDrops_cons_of_fullyIssued hf, hsettled]
      simp [settledEntry, awaitsDrop_of_fullyIssued hf]
    | false =>
      cases hd : awaitsDrop e with
      | true =>
        refine ⟨e :: front, back, by rw [hq]; rfl, List.forall_mem_cons.2 ⟨.inl hd, hfront⟩, hback, ?_⟩
        rw [settleDrops_cons_of_awaitsDrop hf hd, hsettled]
        simp [settledEntry, hd]
      | false =>
        refine ⟨[], e :: rest, rfl, by simp, ?_, settleDrops_cons_of_unissued hf hd rest⟩
        rintro b ⟨rfl⟩
        exact ⟨hd, (fullyIssued_eq_false e).1 hf⟩

/-! ### The LINK DROP takes effect -/

theorem exec_linkDropTakesEffect {s : State} (hr : s.resetAsserted = false) (p : Port) :
    exec (.linkDropTakesEffect p) s = .next (takeDrops p s) := by
  change execLinkDropTakesEffect p s = _
  unfold execLinkDropTakesEffect
  rw [hr]
  rfl

theorem dropsOf_of_due {q : List Entry} (h : dropDue q = true) (p : Port) (links : List Link) :
    dropsOf p q links = heldBy p links := if_pos h

theorem withDrops_of_due {q : List Entry} (h : dropDue q = true) (p : Port) (links : List Link) :
    withDrops p q links = links.filter fun l => !(l.holder == p) := if_pos h

/-- R72: the port whose LINK DROP is due answers it and records as many losses as it held links. -/
theorem takeDrops_port_of_due {p : Port} {s : State} (h : dropDue (s.port p).queue = true) :
    (takeDrops p s).port p =
      { s.port p with
        queue := settleDrops (s.port p).queue
        lastLoss := if heldBy p s.links = 0 then (s.port p).lastLoss else some .dropped
        lossCount := (s.port p).lossCount + BitVec.ofNat 32 (heldBy p s.links) } := by
  rw [takeDrops_port, if_pos rfl, dropsOf_of_due h, recordLoss_eq]

theorem takeDrops_port_ne {p r : Port} (h : r ≠ p) (s : State) : (takeDrops p s).port r = s.port r := by
  rw [takeDrops_port, if_neg h]

/-- Settles O48: when a LINK DROP is due and which entries are answered, both by the recursion along the queue, and its
effect as one closing of its port's links. -/
theorem linkDropTakesEffect : Obligations.LinkDropTakesEffect := by
  intro p s q drop m
  refine ⟨dropDue_iff q, settleDrops_split q, fun hr hdue => ?effect⟩
  case effect =>
    have hlinks : (takeDrops p s).links = s.links.filter fun l => !(l.holder == p) :=
      (takeDrops_links p s).trans (withDrops_of_due hdue p s.links)
    refine ⟨takeDrops p s, exec_linkDropTakesEffect hr p, takeDrops_port_of_due hdue,
      fun r hne => takeDrops_port_ne hne s, ?_⟩
    rw [← hlinks]
    exact takeDrops_frame p s

end Sys2Proof.Proofs
end

section
/-! PROOF. A LINKED READ beat at the link table: refresh, or replacement, eviction and opening (R65 to R67). -/

namespace Sys2Proof.Proofs

open Sys2Proof Sys2Proof.Machine Sys2Proof.Safety

/-! ### Which way a link is opened -/

/-- The link that a LINKED READ beat of port p leaves as the youngest (R65). -/
def linkMade (s : State) (p : Port) (a : Word) (bytes serial : Nat) : Link :=
  { holder := p, base := granuleBase s.settings.granule a, width := bytes, age := 0, openedBy := serial }

/-- Port p holds no link on the granule of the address, so that one is opened (R65). -/
def opensLink (s : State) (p : Port) (a : Word) : Bool :=
  !(s.links.any fun l => l.holder == p && l.base == granuleBase s.settings.granule a)

/-- The opening replaces the oldest link of its own port (R66). -/
def replacesLink (s : State) (p : Port) (a : Word) : Bool :=
  opensLink s p a && s.settings.linkLimit ≤ heldBy p s.links

/-- The opening evicts the oldest link of the table (R67). -/
def evictsLink (s : State) (p : Port) (a : Word) : Bool :=
  opensLink s p a && !replacesLink s p a && 12 ≤ s.links.length

/-- The cause with which an opening closes another link, if it closes one (R66, R67). -/
def openingCause (s : State) (p : Port) (a : Word) : LossCause := if replacesLink s p a then .replaced else .evicted

/-- The links that port r loses at a LINKED READ beat of port p (R66, R67). -/
def openingLosses (s : State) (p : Port) (a : Word) (r : Port) : Nat :=
  if (replacesLink s p a && r = p) || (evictsLink s p a && s.links.head?.any (fun l => l.holder == r)) then 1 else 0

theorem linkOn_eq_none_iff (s : State) (p : Port) (a : Word) :
    linkOn s p (granuleBase s.settings.granule a) = none ↔ opensLink s p a = true := by
  simp [linkOn, opensLink]

theorem replacesLink_iff (s : State) (p : Port) (a : Word) :
    replacesLink s p a = true ↔ opensLink s p a = true ∧ s.settings.linkLimit ≤ heldBy p s.links := by
  simp [replacesLink]

theorem evictsLink_iff (s : State) (p : Port) (a : Word) :
    evictsLink s p a = true ↔
      opensLink s p a = true ∧ heldBy p s.links < s.settings.linkLimit ∧ 12 ≤ s.links.length := by
  cases h : opensLink s p a <;> simp [evictsLink, replacesLink, h]

/-- A table without equal links holds a link of it once: at its closing its holder alone loses a link. -/
theorem linksOf_single {s : State} {l : Link} (hn : s.links.Nodup) (hl : l ∈ s.links) (r : Port) :
    linksOf s r (fun x => x == l) = if l.holder = r then 1 else 0 := by
  have hcount : s.links.countP (fun x => x == l) = 1 := List.count_eq_one_of_mem hn hl
  unfold linksOf
  split
  · next hr =>
    rw [← hcount]
    apply List.countP_congr
    intro x _
    simp only [Bool.and_eq_true, beq_iff_eq, and_iff_left_iff_imp]
    rintro rfl
    exact hr
  · next hr =>
    simp only [List.countP_eq_zero, Bool.and_eq_true, beq_iff_eq, not_and]
    rintro x _ rfl
    exact hr

/-! ### The steps of an opening -/

/-- R66: a port at its limit gives up its oldest link. -/
theorem replaceStep_of_full {p : Port} {s : State} {l : Link} (h : s.settings.linkLimit ≤ heldBy p s.links)
    (hl : s.links.find? (fun l => l.holder == p) = some l) :
    replaceStep p s = closeWhere (fun x => x == l) .replaced s := by
  refine (if_pos h).trans ?_
  rw [hl]

theorem evictStep_of_room {s : State} (h : s.links.length < 12) : evictStep s = s := if_neg (Nat.not_le.2 h)

/-- R67: a full table gives up its oldest link. -/
theorem evictStep_of_full {s : State} {l : Link} (h : 12 ≤ s.links.length) (hl : s.links.head? = some l) :
    evictStep s = closeWhere (fun x => x == l) .evicted s := by
  refine (if_pos h).trans ?_
  rw [hl]

/-- R65: a link that is held on the granule is refreshed. -/
theorem openLink_of_held {s : State} {p : Port} {a : Word} (h : opensLink s p a = false) (bytes serial : Nat) :
    openLink p a bytes serial s =
      s.setLinks
        ((s.links.filter fun l => !(l.holder == p && l.base == granuleBase s.settings.granule a)) ++
          [linkMade s p a bytes serial]) := by
  unfold openLink
  dsimp only
  split
  · rfl
  · next hl => simp [(linkOn_eq_none_iff s p a).1 hl] at h

/-- R65 to R67: otherwise the table makes room, and the new link comes behind. -/
theorem openLink_of_opens {s : State} {p : Port} {a : Word} (h : opensLink s p a = true) (bytes serial : Nat) :
    openLink p a bytes serial s =
      (evictStep (replaceStep p s)).setLinks
        ((evictStep (replaceStep p s)).links ++ [linkMade s p a bytes serial]) := by
  unfold openLink
  dsimp only
  rw [(linkOn_eq_none_iff s p a).2 h]
  rfl

/-! ### The four outcomes -/

section
variable {s : State} {p : Port} {a : Word}

/-- An opening that neither replaces nor evicts found room for the port and in the table. -/
theorem room_of_opens (ho : opensLink s p a = true) (hr : replacesLink s p a = false)
    (he : evictsLink s p a = false) : heldBy p s.links < s.settings.linkLimit ∧ s.links.length < 12 := by
  have hlim : heldBy p s.links < s.settings.linkLimit := by
    by_contra h
    simp [(replacesLink_iff s p a).2 ⟨ho, Nat.not_lt.1 h⟩] at hr
  refine ⟨hlim, ?_⟩
  by_contra h
  simp [(evictsLink_iff s p a).2 ⟨ho, hlim, Nat.not_lt.1 h⟩] at he

/-- With room for the new link, the opening closes nothing. -/
theorem openLink_of_room (ho : opensLink s p a = true) (hr : replacesLink s p a = false)
    (he : evictsLink s p a = false) (bytes serial : Nat) :
    openLink p a bytes serial s = s.setLinks (s.links ++ [linkMade s p a bytes serial]) := by
  obtain ⟨hlim, hlen⟩ := room_of_opens ho hr he
  rw [openLink_of_opens ho, replaceStep_none (Nat.not_le.2 hlim), evictStep_of_room hlen]

/-- R67: the link of rank 1 closes EVICTED, and its holder loses it. -/
theorem openLink_of_evicts (hn : s.links.Nodup) (he : evictsLink s p a = true) (bytes serial : Nat) :
    ∃ l rest, s.links = l :: rest ∧
      openLink p a bytes serial s =
        (closeWhere (fun x => x == l) .evicted s).setLinks (rest ++ [linkMade s p a bytes serial]) := by
  obtain ⟨ho, hlim, hlen⟩ := (evictsLink_iff s p a).1 he
  cases hl : s.links with
  | nil => simp [hl] at hlen
  | cons l rest =>
    have hrest : (closeWhere (fun x => x == l) .evicted s).links = rest := by
      rw [closeWhere_links, hl, filter_ne_head (List.nodup_cons.1 (hl ▸ hn)).1]
    refine ⟨l, rest, rfl, ?_⟩
    rw [openLink_of_opens ho, replaceStep_none (Nat.not_le.2 hlim), evictStep_of_full hlen (by rw [hl]; rfl), hrest]

/-- A port that gives up a link has one to give up (R66). -/
theorem exists_holder_of_replaces (hlim : 1 ≤ s.settings.linkLimit) (hr : replacesLink s p a = true) :
    ∃ l ∈ s.links, (l.holder == p) = true :=
  List.countP_pos_iff.1 (hlim.trans ((replacesLink_iff s p a).1 hr).2)

/-- A replacement leaves room for the new link, so that no eviction follows it (R66, R67). -/
theorem length_eraseP_of_replaces (hlen : s.links.length ≤ 12) (hlim : 1 ≤ s.settings.linkLimit)
    (hr : replacesLink s p a = true) : (s.links.eraseP fun l => l.holder == p).length < 12 := by
  obtain ⟨l, hl, hp⟩ := exists_holder_of_replaces hlim hr
  have hpos := List.length_pos_of_mem hl
  rw [List.length_eraseP_of_mem hl hp]
  omega

/-- R66: the oldest link of the port closes REPLACED. -/
theorem openLink_of_replaces (hn : s.links.Nodup) (hlen : s.links.length ≤ 12) (hlim : 1 ≤ s.settings.linkLimit)
    (hr : replacesLink s p a = true) (bytes serial : Nat) :
    ∃ l ∈ s.links, l.holder = p ∧
      openLink p a bytes serial s =
        (closeWhere (fun x => x == l) .replaced s).setLinks
          (s.links.eraseP (fun l => l.holder == p) ++ [linkMade s p a bytes serial]) := by
  obtain ⟨ho, hfull⟩ := (replacesLink_iff s p a).1 hr
  obtain ⟨l, hl⟩ : ∃ l, s.links.find? (fun l => l.holder == p) = some l := by
    rw [← Option.isSome_iff_exists, List.find?_isSome]
    exact exists_holder_of_replaces hlim hr
  have hlinks : (closeWhere (fun x => x == l) .replaced s).links = s.links.eraseP (fun l => l.holder == p) :=
    (eraseP_eq_filter hn hl).symm
  refine ⟨l, List.mem_of_find?_eq_some hl, by simpa using List.find?_some hl, ?_⟩
  rw [openLink_of_opens ho, replaceStep_of_full hfull hl,
    evictStep_of_room (hlinks ▸ length_eraseP_of_replaces hlen hlim hr), hlinks]

/-! ### The table and the loss records behind the beat -/

/-- R66: the table after a replacement, if there is one. -/
def afterReplacement (s : State) (p : Port) : List Link :=
  if s.settings.linkLimit ≤ heldBy p s.links then s.links.eraseP (fun l => l.holder == p) else s.links

/-- R67: the table after an eviction, if there is one, ahead of the new link. -/
def afterEviction (s : State) (p : Port) : List Link :=
  if 12 ≤ (afterReplacement s p).length then (afterReplacement s p).tail else afterReplacement s p

theorem linksAfterLinkedRead_of_held (ho : opensLink s p a = false) (bytes : Nat) :
    linksAfterLinkedRead s p a bytes =
      (s.links.filter fun l => !(l.holder == p && l.base == granuleBase s.settings.granule a)) ++
        [linkMade s p a bytes s.nextId] := if_pos (by simpa [opensLink] using ho)

theorem linksAfterLinkedRead_of_opens (ho : opensLink s p a = true) (bytes : Nat) :
    linksAfterLinkedRead s p a bytes = afterEviction s p ++ [linkMade s p a bytes s.nextId] :=
  if_neg (by simpa [opensLink] using ho)

theorem afterEviction_of_replaces (hlen : s.links.length ≤ 12) (hlim : 1 ≤ s.settings.linkLimit)
    (hr : replacesLink s p a = true) : afterEviction s p = s.links.eraseP fun l => l.holder == p := by
  have hfirst : afterReplacement s p = s.links.eraseP fun l => l.holder == p :=
    if_pos ((replacesLink_iff s p a).1 hr).2
  unfold afterEviction
  rw [hfirst, if_neg (Nat.not_le.2 (length_eraseP_of_replaces hlen hlim hr))]

theorem afterEviction_of_evicts (he : evictsLink s p a = true) : afterEviction s p = s.links.tail := by
  obtain ⟨_, hlim, hfull⟩ := (evictsLink_iff s p a).1 he
  have hfirst : afterReplacement s p = s.links := if_neg (Nat.not_le.2 hlim)
  unfold afterEviction
  rw [hfirst, if_pos hfull]

theorem afterEviction_of_room (ho : opensLink s p a = true) (hr : replacesLink s p a = false)
    (he : evictsLink s p a = false) : afterEviction s p = s.links := by
  obtain ⟨hlim, hlen⟩ := room_of_opens ho hr he
  have hfirst : afterReplacement s p = s.links := if_neg (Nat.not_le.2 hlim)
  unfold afterEviction
  rw [hfirst, if_neg (Nat.not_le.2 hlen)]

/-- R65 to R67: the table behind a LINKED READ beat, as the statements write it. -/
theorem openLink_links (hn : s.links.Nodup) (hlen : s.links.length ≤ 12) (hlim : 1 ≤ s.settings.linkLimit)
    (bytes serial : Nat) :
    (openLink p a bytes serial s).links = linksAfterLinkedRead (s.setNextId serial) p a bytes := by
  cases ho : opensLink s p a with
  | false =>
    rw [openLink_of_held ho]
    exact (linksAfterLinkedRead_of_held (s := s.setNextId serial) ho bytes).symm
  | true =>
    refine Eq.trans ?_ (linksAfterLinkedRead_of_opens (s := s.setNextId serial) ho bytes).symm
    change _ = afterEviction s p ++ [linkMade s p a bytes serial]
    cases hr : replacesLink s p a with
    | true =>
      obtain ⟨l, _, _, h⟩ := openLink_of_replaces hn hlen hlim hr bytes serial
      rw [h, setLinks_links, afterEviction_of_replaces hlen hlim hr]
    | false =>
      cases he : evictsLink s p a with
      | true =>
        obtain ⟨l, rest, hl, h⟩ := openLink_of_evicts hn he bytes serial
        rw [h, setLinks_links, afterEviction_of_evicts he, hl, List.tail_cons]
      | false => rw [openLink_of_room ho hr he, setLinks_links, afterEviction_of_room ho hr he]

/-- R66, R67, R74: the losses of a LINKED READ beat, each recorded at the holder. -/
theorem openLink_port (hn : s.links.Nodup) (hlen : s.links.length ≤ 12) (hlim : 1 ≤ s.settings.linkLimit)
    (bytes serial : Nat) (r : Port) :
    (openLink p a bytes serial s).port r = recordLoss (openingCause s p a) (openingLosses s p a r) (s.port r) := by
  cases hr : replacesLink s p a with
  | true =>
    obtain ⟨l, hl, rfl, h⟩ := openLink_of_replaces hn hlen hlim hr bytes serial
    rw [h, setLinks_port, closeWhere_port, linksOf_single hn hl]
    simp [openingCause, openingLosses, evictsLink, hr, eq_comm]
  | false =>
    cases he : evictsLink s p a with
    | true =>
      obtain ⟨l, rest, hl, h⟩ := openLink_of_evicts hn he bytes serial
      rw [h, setLinks_port, closeWhere_port, linksOf_single hn (by simp [hl])]
      simp [openingCause, openingLosses, hr, he, hl]
    | false =>
      have hnone : (openLink p a bytes serial s).port r = s.port r := by
        cases ho : opensLink s p a with
        | true => rw [openLink_of_room ho hr he, setLinks_port]
        | false => rw [openLink_of_held ho, setLinks_port]
      simp [hnone, openingLosses, hr, he]

end
end Sys2Proof.Proofs
end

section
/-! PROOF. A LINKED READ head issues (R29, R65 to R67, R79, R93). -/

namespace Sys2Proof.Proofs

open Sys2Proof Sys2Proof.Machine Sys2Proof.Safety

/-! ### The beat time of a slot whose grantee has a head that may issue -/

/-- The gate at the issue decision of a beat time: no beat is driven yet, and the deadlines have fallen (R135). -/
def atDecision (s : State) : State := ageDeadlines (s.setMemBeat none)

@[simp] theorem atDecision_outstanding (s : State) : (atDecision s).mem.outstanding = agedBeats s := rfl
@[simp] theorem atDecision_port (s : State) (p : Port) : (atDecision s).port p = s.port p := rfl
@[simp] theorem atDecision_atomic (s : State) : (atDecision s).atomic = s.atomic := rfl

theorem beatTime_eq (s : State) :
    beatTime s = endBeat (decideIssue (atDecision s)).2 (decideIssue (atDecision s)).1 := rfl

/-- Conditions 1 to 3 of R27 hold at the issue decision. -/
theorem pathFree_atDecision {s : State} (hm : s.mem.state = .ready) (hlen : s.mem.outstanding.length < 16)
    (ha : s.atomic = none) : pathFree (atDecision s) = true := by
  have hstate : (atDecision s).mem.state = .ready := hm
  have hout : (agedBeats s).length < Config.outstandingMax := by
    rw [agedBeats, List.length_map]
    exact hlen
  simp [pathFree, hstate, hout, ha]

/-- R27: without an atomic update the issue decision is that of the slot's grantee. -/
theorem decideIssue_of_grantee {s : State} {p : Port} (ha : s.atomic = none) (hrec : s.sched.record.isSome = true)
    (hg : s.sched.grantee = some p) : decideIssue s = tryIssue (s.port p).queue.length p s := by
  obtain ⟨r, hr⟩ := Option.isSome_iff_exists.1 hrec
  unfold decideIssue atomicWriteDue
  rw [ha, hr, hg]
  rfl

/-- R29, R79: on a LINKED READ head the decision is its beat. -/
theorem tryIssue_of_linkedRead {s : State} {p : Port} {e : Entry} (hh : issueHead (s.port p) = some e)
    (hf : pathFree s = true) (hk : e.req.kind = .linkedRead) (fuel : Nat) :
    tryIssue (fuel + 1) p s = (placeLinkedRead p e s, some p) := by
  rw [tryIssue.eq_2]
  simp only [hh, hf, hk]
  rfl

/-- R26: a beat time in which the grantee issues charges no slack. -/
theorem endBeat_of_grantee {s : State} {p : Port} (hrec : s.sched.record.isSome = true)
    (hg : s.sched.grantee = some p) :
    endBeat (some p) s = s.setSched { s.sched with budget := s.sched.budget - 1 } := by
  obtain ⟨r, hr⟩ := Option.isSome_iff_exists.1 hrec
  have hi : granteeIssued s (some p) = true := by simp [granteeIssued, hg]
  unfold endBeat
  simp [hr, hi]

/-- The beat time of a LINKED READ head that may issue (R27, R29, R79). -/
theorem beatTime_of_linkedRead {s : State} {p : Port} {e : Entry} (h : MayIssue s p e)
    (hk : e.req.kind = .linkedRead) :
    beatTime s =
      (placeLinkedRead p e (atDecision s)).setSched { s.sched with budget := s.sched.budget - 1 } := by
  obtain ⟨_, hm, hlen, ha, hrec, hg, hh⟩ := h
  have hsched : (placeLinkedRead p e (atDecision s)).sched = s.sched := by
    rw [(issueFrame_placeLinkedRead p e (atDecision s)).1]
    rfl
  obtain ⟨_, _, _, hmem, _⟩ := issueHead_some hh
  obtain ⟨n, hn⟩ := Nat.exists_eq_add_one_of_ne_zero (List.length_pos_of_mem hmem).ne'
  have hd : decideIssue (atDecision s) = (placeLinkedRead p e (atDecision s), some p) := by
    rw [decideIssue_of_grantee (s := atDecision s) ha hrec hg, atDecision_port, hn,
      tryIssue_of_linkedRead (s := atDecision s) hh (pathFree_atDecision hm hlen ha) hk]
  rw [beatTime_eq, hd, endBeat_of_grantee (hsched ▸ hrec) (hsched ▸ hg), hsched]

/-! ### The LINKED READ beat -/

section
variable (p : Port) (entry index : Nat) (kind : BeatKind) (a : Word) (bytes : Nat) (value : Option Elem) (s : State)

/-- The gate at the moment a beat is presented to the link monitor: it is outstanding and driven, and its port is served
(R64, R134). -/
def beatDriven : State :=
  (((s.setMem
      { s.mem with
        outstanding :=
          s.mem.outstanding ++
            [{ port := p, entry := entry, index := index, kind := kind, addr := a,
               deadline := newDeadline s.settings.memTimeout, serial := s.nextId }] }).setNextId
      (s.nextId + 1)).setMemBeat
    (some { write := value.isSome, addr := a, bytes := bytes, element := value })).modPort p
    fun x => noteService { x with granted := x.granted + 1 }

theorem issueBeat_eq :
    issueBeat p entry index kind a bytes value s =
      presentBeat p kind a bytes s.nextId (beatDriven p entry index kind a bytes value s) := rfl

@[simp] theorem beatDriven_links : (beatDriven p entry index kind a bytes value s).links = s.links := rfl
@[simp] theorem beatDriven_settings : (beatDriven p entry index kind a bytes value s).settings = s.settings := rfl

theorem beatDriven_port (r : Port) :
    (beatDriven p entry index kind a bytes value s).port r =
      if r = p then noteService { s.port p with granted := (s.port p).granted + 1 } else s.port r := by
  unfold beatDriven
  rw [port_modPort]
  rfl

end

/-- What an opening closes is told by the links and the settings alone. -/
theorem opening_congr {s t : State} (hl : s.links = t.links) (hs : s.settings = t.settings) (p : Port) (a : Word) :
    openingCause s p a = openingCause t p a ∧ openingLosses s p a = openingLosses t p a := by
  have ho : opensLink s p a = opensLink t p a := by
    unfold opensLink
    rw [hl, hs]
  have hr : replacesLink s p a = replacesLink t p a := by
    unfold replacesLink
    rw [ho, hl, hs]
  have he : evictsLink s p a = evictsLink t p a := by
    unfold evictsLink
    rw [ho, hr, hl]
  refine ⟨?_, funext fun r => ?_⟩
  · unfold openingCause
    rw [hr]
  · unfold openingLosses
    rw [hr, he, hl]

section
variable {s : State} (p : Port) (entry index : Nat) (a : Word) (bytes : Nat) (value : Option Elem)

/-- The table behind the issue of a LINKED READ beat (R65 to R67). -/
theorem issueBeat_linkedRead_links (h : LinkInv s) :
    (issueBeat p entry index .linkedRead a bytes value s).links = linksAfterLinkedRead s p a bytes := by
  obtain ⟨hlim, hlen, _, hd, _⟩ := h
  have hlim' : 1 ≤ s.settings.linkLimit := by omega
  rw [issueBeat_eq]
  exact openLink_links (s := beatDriven p entry index .linkedRead a bytes value s) (nodup_of_linksDistinct hd) hlen
    hlim' bytes s.nextId

/-- Every port behind the issue of a LINKED READ beat: the beat's port is served, and the losses are recorded (R66, R67,
R130, R131). -/
theorem issueBeat_linkedRead_port (h : LinkInv s) (r : Port) :
    (issueBeat p entry index .linkedRead a bytes value s).port r =
      recordLoss (openingCause s p a) (openingLosses s p a r)
        (if r = p then noteService { s.port p with granted := (s.port p).granted + 1 } else s.port r) := by
  obtain ⟨hlim, hlen, _, hd, _⟩ := h
  have hlim' : 1 ≤ s.settings.linkLimit := by omega
  obtain ⟨hcause, hlosses⟩ :=
    opening_congr (beatDriven_links p entry index .linkedRead a bytes value s)
      (beatDriven_settings p entry index .linkedRead a bytes value s) p a
  rw [issueBeat_eq, ← hcause, ← hlosses, ← beatDriven_port p entry index .linkedRead a bytes value s]
  exact openLink_port (s := beatDriven p entry index .linkedRead a bytes value s) (nodup_of_linksDistinct hd) hlen
    hlim' bytes s.nextId r

end

/-- The queue of port p behind its LINKED READ beat, before LINK DROPs (R29). -/
def queueAfterLinkedRead (s : State) (p : Port) (e : Entry) : List Entry :=
  changed e.id (fun x => { x with nextBeat := 1, state := .issued }) (s.port p).queue

section
variable {s : State} {p : Port} {e : Entry}

/-- The table behind a placed LINKED READ (R65 to R67, R93). -/
theorem placeLinkedRead_links (h : LinkInv s) :
    (placeLinkedRead p e s).links =
      withDrops p (queueAfterLinkedRead s p e) (linksAfterLinkedRead s p e.req.addr e.req.bytes) := by
  unfold placeLinkedRead
  dsimp only
  rw [takeDrops_links, port_modPort_self, modEntry_queue, modPort_links, issueBeat_linkedRead_links _ _ _ _ _ _ h,
    issueBeat_linkedRead_port _ _ _ _ _ _ h, recordLoss_queue, if_pos rfl]
  rfl

/-- The port of a placed LINKED READ. -/
theorem placeLinkedRead_port_self (h : LinkInv s) :
    (placeLinkedRead p e s).port p =
      { recordLoss .dropped
          (dropsOf p (queueAfterLinkedRead s p e) (linksAfterLinkedRead s p e.req.addr e.req.bytes))
          (recordLoss (openingCause s p e.req.addr) (openingLosses s p e.req.addr p)
            (noteService { s.port p with granted := (s.port p).granted + 1 })) with
        queue := settleDrops (queueAfterLinkedRead s p e) } := by
  unfold placeLinkedRead
  dsimp only
  rw [takeDrops_port, if_pos rfl, port_modPort_self, modEntry_queue, modPort_links,
    issueBeat_linkedRead_links _ _ _ _ _ _ h, issueBeat_linkedRead_port _ _ _ _ _ _ h, recordLoss_queue, if_pos rfl]
  simp only [recordLoss_eq]
  rfl

/-- Every other port loses links at most. -/
theorem placeLinkedRead_port_ne (h : LinkInv s) {r : Port} (hr : r ≠ p) :
    (placeLinkedRead p e s).port r =
      recordLoss (openingCause s p e.req.addr) (openingLosses s p e.req.addr r) (s.port r) := by
  unfold placeLinkedRead
  dsimp only
  rw [takeDrops_port, if_neg hr, port_modPort_ne _ _ hr, issueBeat_linkedRead_port _ _ _ _ _ _ h, if_neg hr]

/-- The beat of a placed LINKED READ is the youngest outstanding (R133). -/
theorem placeLinkedRead_outstanding :
    (placeLinkedRead p e s).mem.outstanding =
      s.mem.outstanding ++
        [{ port := p, entry := e.id, index := 0, kind := .linkedRead, addr := e.req.addr,
           deadline := deadlineAtIssue s, serial := s.nextId }] := by
  unfold placeLinkedRead
  rw [takeDrops_mem, modPort_mem, issueBeat_frame]

/-- The beat of a placed LINKED READ is driven without an element (R134). -/
theorem placeLinkedRead_memBeat :
    (placeLinkedRead p e s).memBeat =
      some { write := false, addr := e.req.addr, bytes := e.req.bytes, element := none } := by
  unfold placeLinkedRead
  rw [takeDrops_memBeat, modPort_memBeat, issueBeat_frame]
  rfl

theorem placeLinkedRead_nextId : (placeLinkedRead p e s).nextId = s.nextId + 1 := by
  unfold placeLinkedRead
  rw [takeDrops_nextId, modPort_nextId, issueBeat_frame]

theorem placeLinkedRead_atomic : (placeLinkedRead p e s).atomic = s.atomic := by
  unfold placeLinkedRead
  rw [takeDrops_atomic, modPort_atomic, issueBeat_frame]

theorem placeLinkedRead_counters : (placeLinkedRead p e s).counters = s.counters := by
  unfold placeLinkedRead
  rw [takeDrops_counters, modPort_counters, issueBeat_frame]

end

/-! ### Both losses of one beat -/

/-- Closings with a cause and then closings DROPPED, as the statements write them (R74, R93). -/
theorem lossIs_recordLoss (x : PortRec) (c : LossCause) (n m : Nat) :
    LossIs x (recordLoss .dropped m (recordLoss c n x)) c n m := by
  simp only [LossIs, recordLoss_eq, ne_eq, ite_not, and_self]

/-- A port whose loss record alone changes was not served. -/
theorem unserved_of_recordLoss {s t : State} {r : Port} {c : LossCause} {n : Nat}
    (h : t.port r = recordLoss c n (s.port r)) : Unserved s t r := by
  unfold Unserved
  simp [h]

/-- Settles O32: the beat time is the placed LINKED READ with its budget counted; table, losses and beat are read off
it. -/
theorem linkedReadHeadOpensItsLink : Obligations.LinkedReadHeadOpensItsLink := by
  intro s p e hinv hissue hk bytes q L opens replaces evicts
  have ht := beatTime_of_linkedRead hissue hk
  have hinv' : LinkInv (atDecision s) := hinv
  obtain ⟨hpass, _, _, ha, _⟩ := hissue
  have hself : (beatTime s).port p =
      { recordLoss .dropped (dropsOf p q L)
          (recordLoss (openingCause s p e.req.addr) (openingLosses s p e.req.addr p)
            (noteService { s.port p with granted := (s.port p).granted + 1 })) with
        queue := settleDrops q } := by
    rw [ht, setSched_port]
    exact placeLinkedRead_port_self hinv'
  have hother : ∀ r : Port, r ≠ p →
      (beatTime s).port r =
        recordLoss (openingCause s p e.req.addr) (openingLosses s p e.req.addr r) (s.port r) := by
    intro r hr
    rw [ht, setSched_port]
    exact placeLinkedRead_port_ne hinv' hr
  refine ⟨beatTime s, exec_issueDecision_of_beatCanPass hpass, beatTime_frame s, ⟨?outstanding, ?driven, ?counted,
    ?unwatched, ?unstarved⟩, ?queue, ?condOk, ?condFail, fun r hr => ?unserved, ?atomic, ?overhang, ?links,
    fun r => ?losses⟩
  case outstanding => rw [ht]; exact placeLinkedRead_outstanding
  case driven => rw [ht]; exact placeLinkedRead_memBeat
  case counted => rw [ht]; exact placeLinkedRead_nextId
  case unwatched => rw [hself, recordLoss_watching, recordLoss_watching, noteService_watching]
  case unstarved => rw [hself, recordLoss_starved, recordLoss_starved, noteService_starved]
  case queue => rw [hself]
  case condOk => rw [hself, recordLoss_condOk, recordLoss_condOk, noteService_condOk]
  case condFail => rw [hself, recordLoss_condFail, recordLoss_condFail, noteService_condFail]
  case unserved => exact unserved_of_recordLoss (hother r hr)
  case atomic => rw [ht]; exact placeLinkedRead_atomic.trans ha
  case overhang => rw [ht]; exact congrArg _ (placeLinkedRead_counters (s := atDecision s))
  case links => rw [ht]; exact placeLinkedRead_links hinv'
  case losses =>
    by_cases hr : r = p
    · subst hr
      rw [hself, if_pos rfl]
      exact lossIs_recordLoss _ _ _ _
    · rw [hother r hr, if_neg hr]
      exact lossIs_recordLoss (s.port r) _ (openingLosses s p e.req.addr r) 0

end Sys2Proof.Proofs
end

section
/-! PROOF. PEEK_NOTICE, TAKE_NOTICE and CLEAR_STATE (R153 to R155, R160). -/

namespace Sys2Proof.Proofs

open Sys2Proof Sys2Proof.Machine Sys2Proof.Safety

/-! ### PEEK_NOTICE and TAKE_NOTICE -/

theorem exec_peekNotice (fill : Nat) (s : State) :
    exec (.peekNotice fill) s =
      .next (command 0x50 [] fill
        (fun u => accept u (noticeBytes u.notices.records.head? u.notices.records.length u.notices.lost)) s) := rfl

theorem exec_takeNotice (fill : Nat) (s : State) :
    exec (.takeNotice fill) s = .next (command 0x51 [] fill takeNoticeBody s) := rfl

/-- The queue without its oldest record, with the line of the statements (R151, R154). -/
theorem noticeQueue_take_eq (q : NoticeQueue) (mask : Byte) :
    q.take mask = { q with records := q.records.tail, line := lineOf mask q.records.tail } := by
  unfold NoticeQueue.take
  rw [noticeLine_eq]

/-- On an empty queue TAKE_NOTICE changes nothing (R154). -/
theorem takeNoticeBody_of_empty {s : State} (hq : s.notices.records = []) :
    takeNoticeBody s = accept s (recordBytes none ++ [0, s.notices.lost]) := by
  unfold takeNoticeBody
  rw [hq]
  exact congrArg (accept s) (noticeBytes_eq none 0 _)

/-- On a queue with an oldest record TAKE_NOTICE removes it and answers it (R154). -/
theorem takeNoticeBody_of_head {s : State} {r : NoticeRecord} (hr : s.notices.records.head? = some r) :
    takeNoticeBody s =
      accept (s.setNotices (s.notices.take s.settings.noticeMask))
        (recordBytes (some r) ++ [BitVec.ofNat 8 (s.notices.records.length - 1), s.notices.lost]) := by
  obtain ⟨rest, hq⟩ := List.head?_eq_some_iff.1 hr
  unfold takeNoticeBody
  rw [hq, ← noticeBytes_eq, List.length_cons, Nat.add_sub_cancel]

/-- Settles O55: a peek leaves the queue; a take finds it empty, or removes its oldest record. -/
theorem peekAndTakeNotice : Obligations.PeekAndTakeNotice := by
  intro s fill h q
  refine ⟨?peeked, fun hq => ?nothingTaken, fun r hr => ?taken⟩
  case peeked =>
    rw [exec_peekNotice]
    exact congrArg _ (command_accept h 0x50 [] fill _ _ (congrArg (accept _) (noticeBytes_eq _ _ _)))
  case nothingTaken =>
    rw [exec_takeNotice]
    exact congrArg _ (command_accept h 0x51 [] fill _ _ (takeNoticeBody_of_empty (s := clocked _ s) hq))
  case taken =>
    rw [exec_takeNotice, ← noticeQueue_take_eq]
    exact congrArg _ (command_of_reply h 0x51 [] fill (takeNoticeBody_of_head (s := clocked _ s) hr) rfl)

/-! ### CLEAR_STATE -/

/-- CLEAR_STATE on the frame that carries it: the clearing of R160, and its answer. -/
theorem exec_clearState {s : State} (h : Listening s) (fill : Nat) :
    exec (.clearState fill) s =
      .next { clearAll s with mgmt := answered s 0x70 (8 * (1 + fill)) .accepted [] } :=
  congrArg _ (command_of_reply (body := fun u => accept (clearAll u) []) h 0x70 [] fill rfl rfl)

/-- Every port is cleared in its counters and its loss record alone (R156, R160). -/
theorem clearAll_port (s : State) (p : Port) : (clearAll s).port p = clearPort (s.port p) :=
  port_mapPorts s (fun _ x => clearPort x) p

/-- Besides the ports, the clearing writes the gate-wide counters and the notice queue alone (R160). -/
theorem clearAll_eq (s : State) :
    clearAll s = { s with ports := (clearAll s).ports, counters := .reset, notices := .reset } := rfl

/-- Settles O56: the clearing of R160 is the command's whole effect, port by port and in the rest of the gate. -/
theorem clearStateClearsCountersAndNotices : Obligations.ClearStateClearsCountersAndNotices := by
  intro s fill h
  refine ⟨_, exec_clearState h fill, fun p => ?cleared, ?elsewhere⟩
  case cleared => exact clearAll_port s p
  case elsewhere =>
    exact congrArg (fun t => { t with mgmt := answered s 0x70 (8 * (1 + fill)) .accepted [] }) (clearAll_eq s)

end Sys2Proof.Proofs
end

section
/-! PROOF. The management port's commands that read and write settings and report the state: READ_SETTING and
WRITE_SETTING (R170 to R172), READ_PORT and READ_GATE (R158, R159, R173, R174). -/

namespace Sys2Proof.Proofs

open Sys2Proof Sys2Proof.Machine Sys2Proof.Safety

/-! ### A port argument -/

theorem portArg_of_eq {b : Byte} {p : Port} (h : b.toNat = p.val) : portArg b = some p := by
  unfold portArg
  rw [dif_pos (by omega)]
  exact congrArg some (Fin.ext h)

theorem portArg_of_over {b : Byte} (h : 7 < b.toNat) : portArg b = none := dif_neg (by omega)

theorem onPort_of_eq {b : Byte} {p : Port} (h : b.toNat = p.val) (act : Port → State → MgmtReply) (s : State) :
    onPort b act s = act p s := by
  unfold onPort
  rw [portArg_of_eq h]

theorem onPort_of_over {b : Byte} (h : 7 < b.toNat) (act : Port → State → MgmtReply) (s : State) :
    onPort b act s = refuse s .badArgument := by
  unfold onPort
  rw [portArg_of_over h]

/-! ### READ_PORT and READ_GATE -/

theorem exec_readPort (port : Byte) (fill : Nat) (s : State) :
    exec (.readPort port fill) s =
      .next (command 0x33 [port] fill (onPort port fun p u => accept u (u.port p).bytes) s) := rfl

theorem exec_readGate (fill : Nat) (s : State) :
    exec (.readGate fill) s = .next (command 0x71 [] fill (fun u => accept u (gateBytes u)) s) := rfl

/-- The bytes of R174 do not tell of the management port, so the frame that asks for them leaves them as they are. -/
theorem gateBytes_clocked (n : Nat) (s : State) : gateBytes (clocked n s) = gateData s := gateBytes_eq s

/-- Settles O52: a port byte names a port, whose bytes are answered, or is refused; READ_GATE always answers. -/
theorem readPortAndReadGateReportTheState : Obligations.ReadPortAndReadGateReportTheState := by
  intro s p b fill h
  refine ⟨fun hp => ?portRead, fun hb => ?portRefused, ?gateRead⟩
  case portRead =>
    rw [exec_readPort, ← portRecBytes_eq]
    exact congrArg _ (command_accept h 0x33 [b] fill _ _ (onPort_of_eq hp _ _))
  case portRefused =>
    rw [exec_readPort]
    exact congrArg _ (command_refuse h 0x33 [b] fill _ .badArgument (onPort_of_over hb _ _))
  case gateRead =>
    rw [exec_readGate]
    exact congrArg _ (command_accept h 0x71 [] fill _ _ (congrArg (accept _) (gateBytes_clocked _ s)))

/-! ### What the side effects of a setting's write keep -/

theorem syncModeEffect_keeps (old : Settings) (s : State) :
    (syncModeEffect old s).settings = s.settings ∧ (syncModeEffect old s).mgmt = s.mgmt := by
  unfold syncModeEffect
  split
  · exact ⟨frameStart_settings _, frameStart_mgmt _⟩
  · exact ⟨rfl, rfl⟩
  · exact ⟨rfl, rfl⟩

theorem linkLimitEffect_keeps (old : Settings) (s : State) :
    (linkLimitEffect old s).settings = s.settings ∧ (linkLimitEffect old s).mgmt = s.mgmt := by
  unfold linkLimitEffect
  split
  · exact ⟨closeWhere_settings _ _ s, closeWhere_mgmt _ _ s⟩
  · exact ⟨rfl, rfl⟩

theorem granuleEffect_keeps (old : Settings) (s : State) :
    (granuleEffect old s).settings = s.settings ∧ (granuleEffect old s).mgmt = s.mgmt := by
  unfold granuleEffect
  split
  · exact ⟨rfl, rfl⟩
  · exact ⟨closeWhere_settings _ _ s, closeWhere_mgmt _ _ s⟩

/-- Whatever a setting's write brings about, the settings stand as they were stored and the management port is left to
the framing of the command (R172). -/
theorem settingEffect_keeps (number : Nat) (old : Settings) (s : State) :
    (settingEffect number old s).settings = s.settings ∧ (settingEffect number old s).mgmt = s.mgmt := by
  unfold settingEffect
  split
  · exact syncModeEffect_keeps old s
  · exact linkLimitEffect_keeps old s
  · exact granuleEffect_keeps old s
  · exact ⟨setNotices_settings s _, setNotices_mgmt s _⟩
  · exact ⟨rfl, rfl⟩

/-! ### The stored values and the answer that carries one -/

/-- A value in range is stored in the place of its setting, and in no other (R170, R172). -/
theorem storedValues_storeSetting (t : Settings) {number value : Nat} (h : SettingRange number value) :
    storedValues (storeSetting t number value) = (storedValues t).set number value := by
  have byte_toNat : value ≤ 255 → (BitVec.ofNat 8 value).toNat = value := fun hv => by
    rw [BitVec.toNat_ofNat]
    omega
  rcases h with ⟨rfl, hv⟩ | ⟨rfl, -⟩ | ⟨rfl, -⟩ | ⟨rfl, -⟩ | ⟨rfl, -⟩ | ⟨rfl, -⟩ | ⟨rfl, -⟩ | ⟨rfl, -⟩ |
    ⟨rfl, hv⟩ | ⟨rfl, hv, -⟩
  · obtain rfl | rfl : value = 0 ∨ value = 1 := by omega
    · rfl
    · rfl
  · rfl
  · rfl
  · rfl
  · rfl
  · rfl
  · rfl
  · rfl
  · exact congrArg (fun x => (storedValues t).set 8 x) (byte_toNat hv)
  · exact congrArg (fun x => (storedValues t).set 9 x) (byte_toNat hv)

theorem number_le_of_settingRange {number value : Nat} (h : SettingRange number value) : number ≤ 9 := by
  unfold SettingRange at h
  omega

/-- The stored value read back after the write of a value in range is that value. -/
theorem storedValues_storeSetting_getD (t : Settings) {number value : Nat} (h : SettingRange number value) :
    (storedValues (storeSetting t number value)).getD number 0 = value := by
  have hn : number < (storedValues t).length := Nat.lt_succ_of_le (number_le_of_settingRange h)
  rw [storedValues_storeSetting t h, List.getD_eq_getElem?_getD, List.getElem?_set_self hn, Option.getD_some]

/-- The answer that carries a setting: its number byte and its stored value, in the bytes of R162. -/
theorem settingReply_eq (s : State) (number : Byte) :
    settingReply s number.toNat =
      accept s (number :: twoBytes ((storedValues s.settings).getD number.toNat 0)) := by
  unfold settingReply byteN
  rw [be16N_eq, settingValue_eq, BitVec.ofNat_toNat, BitVec.setWidth_eq]

/-! ### READ_SETTING -/

/-- What READ_SETTING answers on a gate (R171). -/
def readSettingBody (number : Byte) (s : State) : MgmtReply :=
  if number.toNat ≤ 9 then settingReply s number.toNat else refuse s .badArgument

theorem exec_readSetting (number : Byte) (fill : Nat) (s : State) :
    exec (.readSetting number fill) s = .next (command 0x01 [number] fill (readSettingBody number) s) := rfl

theorem readSettingBody_of_setting {number : Byte} (h : number.toNat ≤ 9) (s : State) :
    readSettingBody number s =
      accept s (number :: twoBytes ((storedValues s.settings).getD number.toNat 0)) :=
  (if_pos h).trans (settingReply_eq s number)

theorem readSettingBody_of_over {number : Byte} (h : 9 < number.toNat) (s : State) :
    readSettingBody number s = refuse s .badArgument := if_neg (by omega)

/-! ### WRITE_SETTING -/

theorem exec_writeSetting (number : Byte) (value : Half) (fill : Nat) (s : State) :
    exec (.writeSetting number value fill) s =
      .next (command 0x02 (number :: halfBytes value) fill
        (writeSettingBody number.toNat value (settingEffect number.toNat)) s) := rfl

/-- Each of the ten rows of WRITE_SETTING is the write of its own number, on the frame that carries it (R172). -/
theorem exec_writeSettingCommand (number : Byte) (value : Half) (fill : Nat) (s : State) :
    exec (writeSettingCommand number value fill) s =
      .next (command 0x02 (number :: halfBytes value) fill
        (writeSettingBody number.toNat value (settingEffect number.toNat)) s) := by
  have byte_eq : ∀ k : Nat, number.toNat = k → number = BitVec.ofNat 8 k := fun k hk => by
    rw [← hk, BitVec.ofNat_toNat, BitVec.setWidth_eq]
  unfold writeSettingCommand
  split
  case h_11 => exact exec_writeSetting number value fill s
  all_goals
    rename_i hk
    obtain rfl := byte_eq _ hk
    rfl

/-- A value out of range is refused and nothing is stored (R170). -/
theorem writeSettingBody_of_outOfRange {number : Nat} {value : Half} (h : ¬SettingRange number value.toNat)
    (effect : Settings → State → State) (s : State) :
    writeSettingBody number value effect s = refuse s .badArgument :=
  if_neg (mt (settingInRange_iff number value).1 h)

/-- The gate with a setting stored and the side effect of its write taken (R172). -/
def settingWritten (number : Nat) (value : Half) (s : State) : State :=
  settingEffect number s.settings (s.setSettings (storeSetting s.settings number value.toNat))

theorem settingWritten_settings (number : Nat) (value : Half) (s : State) :
    (settingWritten number value s).settings = storeSetting s.settings number value.toNat :=
  (settingEffect_keeps number _ _).1

theorem settingWritten_mgmt (number : Nat) (value : Half) (s : State) :
    (settingWritten number value s).mgmt = s.mgmt :=
  (settingEffect_keeps number _ _).2

/-- A value in range is stored, and answered with its number (R169, R172). -/
theorem writeSettingBody_of_inRange {number : Byte} {value : Half} (h : SettingRange number.toNat value.toNat)
    (s : State) :
    writeSettingBody number.toNat value (settingEffect number.toNat) s =
      accept (settingWritten number.toNat value s) (number :: twoBytes value.toNat) := by
  unfold writeSettingBody
  rw [if_pos ((settingInRange_iff _ _).2 h)]
  refine (settingReply_eq (settingWritten number.toNat value s) number).trans ?_
  rw [settingWritten_settings, storedValues_storeSetting_getD _ h]

/-- The frame of a WRITE_SETTING whose number and value are not in the table of R170 is refused. -/
theorem command_writeSetting_refuses {s : State} (h : Listening s) {number : Byte} {value : Half}
    (hr : ¬SettingRange number.toNat value.toNat) (fill : Nat) :
    command 0x02 (number :: halfBytes value) fill
        (writeSettingBody number.toNat value (settingEffect number.toNat)) s =
      { s with mgmt := answered s 0x02 (8 * (4 + fill)) .badArgument [] } :=
  command_refuse h 0x02 (number :: halfBytes value) fill _ .badArgument (writeSettingBody_of_outOfRange hr _ _)

/-- Settles O18: a number and a value are in the table of R170 and are read or stored, or they are refused. -/
theorem settingsAreReadWrittenAndRangeChecked : Obligations.SettingsAreReadWrittenAndRangeChecked := by
  intro s n v fill h
  refine ⟨fun hn => ?read, fun hn => ?readRefused, fun hr => ?writeRefused, fun hn => ?numberRefused,
    fun hr => ?written⟩
  case read =>
    rw [exec_readSetting]
    exact congrArg _ (command_accept h 0x01 [n] fill _ _ (readSettingBody_of_setting hn _))
  case readRefused =>
    rw [exec_readSetting]
    exact congrArg _ (command_refuse h 0x01 [n] fill _ .badArgument (readSettingBody_of_over hn _))
  case writeRefused =>
    rw [exec_writeSettingCommand, command_writeSetting_refuses h hr]
  case numberRefused =>
    have hr : ¬SettingRange n.toNat v.toNat := fun hr => absurd (number_le_of_settingRange hr) (by omega)
    rw [exec_writeSetting, command_writeSetting_refuses h hr]
  case written =>
    rw [exec_writeSettingCommand]
    refine ⟨_, congrArg _ (command_of_reply h 0x02 (n :: halfBytes v) fill (writeSettingBody_of_inRange hr _)
      (settingWritten_mgmt _ _ _)), ?_, rfl⟩
    calc storedValues (settingWritten n.toNat v (clocked _ s)).settings
        = storedValues (storeSetting s.settings n.toNat v.toNat) :=
          congrArg storedValues (settingWritten_settings _ _ _)
      _ = (storedValues s.settings).set n.toNat v.toNat := storedValues_storeSetting _ hr

end Sys2Proof.Proofs
end

section
/-! PROOF. What a step can do: every command is a course of happenings of the gate, listed once, each with the condition
under which it is taken. -/

namespace Sys2Proof.Proofs

open Sys2Proof Sys2Proof.Machine Sys2Proof.Safety

/-! ### The happenings -/

/-- A happening of the gate, from s, with the condition under which a command takes it; the assertion of RESET_N apart, which
is a command of its own. What a frame does to the management port, what a counter counts and which notice is raised is left
open. -/
inductive Act (s : State) : State → Prop
  | framed (x : Mgmt) : Act s (s.setMgmt x)
  | counted (x : GateCounters) : Act s (s.setCounters x)
  | raised (n : Notice) : Act s (raise n s)
  | firstFrame (hr : s.resetAsserted = true) : Act s (frameStart { s with resetAsserted := false })
  | line (p : Port) (level : Bool) : Act s (s.modPort p fun x => { x with prst := level })
  | presented (p : Port) (r : Option Request) : Act s (s.modPort p fun x => { x with presented := r })
  | portReset (p : Port) : Act s (startReset p s)
  | portResetEnd (p : Port) : Act s (endReset p s)
  | frameStart (hr : s.resetAsserted = false) (hs : s.sched.state = .gap ∨ s.sched.state = .stopped) :
    Act s (frameStart s)
  | gapMarkFirst (h : gapMarkFirstDue s = true) : Act s (gapMarkFirst s)
  | slotEnd (h : slotEndDue s = true) : Act s (endSlot s)
  | markFirst (h : markFirstDue s = true) : Act s (markFirst s)
  | beat (h : beatCanPass s = true) : Act s (beatTime s)
  | response (status : MemStatus) (element : Elem) : Act s (takeResponse status element s)
  | wedge (h : wedgeDue s = true ∨ wedgeAhead s = true) : Act s (takeWedge s)
  | recovery (h : s.mem.state = .wedged) : Act s (s.setMem { s.mem with state := .ready, owed := 0 })
  | maintReq (level : Bool) : Act s (s.setMem { s.mem with maintReq := level })
  | maintGrant : Act s (grantMaint s)
  | delivery (p : Port) : Act s (deliver p s)
  | drops (p : Port) : Act s (takeDrops p s)
  | taken (p : Port) (r : Request) (h : canTake s p = true) : Act s (takeRequest p r s)
  | enable (p : Port) : Act s (s.modPort p enablePort)
  | disable (p : Port) : Act s (disablePort p s)
  | purgePort (p : Port) : Act s (purgePort p s)
  | purgeAll : Act s (purgeAll s)
  | noticeTaken : Act s (s.setNotices (s.notices.take s.settings.noticeMask))
  | cleared : Act s (clearAll s)
  | setting (number : Nat) (value : Half) (hr : s.resetAsserted = false) (h : SettingRange number value.toNat) :
    Act s (settingWritten number value s)
  | shadow (t : SlotTable) (hc : s.sched.commit = .none) (h : TableOk s.active → TableOk s.shadow → TableOk t) :
    Act s (s.setTables s.active t)
  | swap (hs : s.sched.state = .stopped) (hc : s.sched.commit = .none) : Act s (swapTables s)
  | commit (hs : s.sched.state ≠ .stopped) : Act s (s.setSched { s.sched with commit := .pending })
  | cancel : Act s (s.setSched { s.sched with commit := .none })
  | enterGap (hr : s.resetAsserted = false) (hs : s.sched.state = .stopped) (hm : s.sched.syncInForce = .external) :
    Act s (enterGap s)
  | drain (hr : s.resetAsserted = false) (hs : s.sched.state = .running) :
    Act s (s.setSched { s.sched with state := .draining })
  | enterStopped (hr : s.resetAsserted = false) (hs : s.sched.state = .gap) : Act s (enterStopped s)

/-- A course of happenings. -/
abbrev Acts : State → State → Prop := Relation.ReflTransGen Act

/-- The outcome, if it is a next state, is one that a course of happenings leads to from s. -/
abbrev Reached (s : State) (o : Host.Outcome State Fault Refusal) : Prop := ∀ t, o = .next t → Acts s t

theorem reached_next {s u : State} (h : Acts s u) : Reached s (.next u) := by
  rintro t ⟨rfl⟩
  exact h

theorem reached_refused (s : State) (r : Refusal) : Reached s (.refused r) := by
  rintro t ⟨⟩

/-! ### Frames of the management port -/

theorem acts_endFrame (bits : List Bool) {f : State → State} (s : State)
    (hf : ∀ u, u.resetAsserted = false → Acts u (f u)) : Acts s (endFrame bits f s) := by
  cases hr : s.resetAsserted with
  | true => rw [endFrame_reset hr]
  | false =>
    by_cases hd : s.mgmt.frame = .discarding
    · rw [endFrame_discarding hr hd]
      exact .single (.framed _)
    · rw [endFrame_listening ⟨hr, hd⟩]
      exact .head (.framed _) (hf _ hr)

theorem acts_respond (code : Byte) {u : State} {r : MgmtReply} (h : Acts u r.state) : Acts u (respond code r) :=
  h.tail (.framed _)

/-- A management command is a course of happenings if what it does to the gate is, RESET_N not being asserted. -/
theorem reached_command (code : Byte) (args : List Byte) (fill : Nat) {body : State → MgmtReply} (s : State)
    (hb : ∀ u, u.resetAsserted = false → Acts u (body u).state) :
    Reached s (.next (command code args fill body s)) :=
  reached_next (acts_endFrame _ s fun u hr => acts_respond code (hb u hr))

theorem acts_onPort (b : Byte) {act : Port → State → MgmtReply} {u : State} (h : ∀ p, Acts u (act p u).state) :
    Acts u (onPort b act u).state := by
  unfold onPort
  split
  · exact h _
  · exact .refl

/-! ### What the management commands do to the gate -/

theorem acts_writeSettingBody (number : Nat) (value : Half) {u : State} (hr : u.resetAsserted = false) :
    Acts u (writeSettingBody number value (settingEffect number) u).state := by
  unfold writeSettingBody
  split
  · next h => exact .single (.setting number value hr ((settingInRange_iff number value).1 h))
  · exact .refl

theorem acts_shadowEdit {edit : State → MgmtReply} {u : State}
    (h : u.sched.commit = .none → Acts u (edit u).state) : Acts u (shadowEdit edit u).state := by
  unfold shadowEdit
  cases hc : u.sched.commit with
  | none => exact h hc
  | pending => exact .refl

/-- The record that a WRITE_SLOT's arguments describe has a length in range (R1, R10). -/
theorem recordOk_of_slotRecordOf {kind owner length donate : Byte} {r : SlotRecord}
    (h : slotRecordOf kind owner length donate = some r) : RecordOk r := by
  unfold slotRecordOf at h
  split at h
  · next hl =>
    split at h
    · split at h
      · split at h
        · cases h
          exact hl
        · cases h
      · cases h
    · cases h
      exact hl
    · cases h
      exact hl
    · cases h
  · cases h

theorem tableOk_set {t : SlotTable} (h : TableOk t) (i : Fin 32) {r : SlotRecord} (hr : RecordOk r) :
    TableOk { t with slots := t.slots.set i.val r i.isLt } := by
  obtain ⟨hslots, hlen⟩ := h
  refine ⟨fun j => ?_, hlen⟩
  change RecordOk (t.slots.set i.val r i.isLt)[j.val]
  rw [Vector.getElem_set]
  split
  · exact hr
  · exact hslots j

theorem acts_writeSlotEdit (index kind owner length donate : Byte) {u : State} (hc : u.sched.commit = .none) :
    Acts u (writeSlotEdit index kind owner length donate u).state := by
  unfold writeSlotEdit
  split
  · next i r _ hr => exact .single (.shadow _ hc fun _ hs => tableOk_set hs i (recordOk_of_slotRecordOf hr))
  · exact .refl

theorem acts_setFrameLenEdit (length : Byte) {u : State} (hc : u.sched.commit = .none) :
    Acts u (setFrameLenEdit length u).state := by
  unfold setFrameLenEdit
  split
  · next h => exact .single (.shadow _ hc fun _ hs => ⟨hs.1, h⟩)
  · exact .refl

theorem acts_commitBody (u : State) : Acts u (commitBody u).state := by
  unfold commitBody
  split
  · exact .refl
  · next hc =>
    split
    · next hs => exact .head (.swap hs hc) (.single (.raised _))
    · next hs => exact .single (.commit hs)

theorem acts_startScheduler {u : State} (hr : u.resetAsserted = false) : Acts u (startScheduler u) := by
  unfold startScheduler
  split
  · next hs _ => exact .single (.frameStart hr (.inr hs))
  · next hs hm => exact .single (.enterGap hr hs hm)
  · exact .refl

theorem acts_stopScheduler {u : State} (hr : u.resetAsserted = false) : Acts u (stopScheduler u) := by
  unfold stopScheduler
  split
  · next hs => exact .single (.drain hr hs)
  · next hs => exact .single (.enterStopped hr hs)
  · exact .refl

theorem acts_purgeBody (b : Byte) (u : State) : Acts u (purgeBody b u).state := by
  unfold purgeBody
  split
  · exact .single .purgeAll
  · split
    · exact .single (.purgePort _)
    · exact .refl

theorem acts_takeNoticeBody (u : State) : Acts u (takeNoticeBody u).state := by
  unfold takeNoticeBody
  split
  · exact .refl
  · exact .single .noticeTaken

theorem acts_recoverBody (u : State) : Acts u (recoverBody u).state := by
  unfold recoverBody
  split
  · exact .refl
  · next hw =>
    split
    · next ho =>
      have he : ({ u.mem with state := .ready } : MemPort) = { u.mem with state := .ready, owed := 0 } := by rw [← ho]
      dsimp only [accept]
      rw [he]
      exact .single (.recovery hw)
    · exact .refl

theorem acts_recoverForceBody (u : State) : Acts u (recoverForceBody u).state := by
  unfold recoverForceBody
  split
  · exact .refl
  · next hw => exact .single (.recovery hw)

/-! ### What the pins, the timers and the ports do to the gate -/

theorem acts_startResets (ports : List Port) (s : State) : Acts s (startResets ports s) := by
  induction ports generalizing s with
  | nil => exact .refl
  | cons p rest ih =>
    change Acts s (startResets rest (if (s.port p).prst then startReset p s else s))
    split
    · exact .head (.portReset p) (ih _)
    · exact ih s

/-- The gate at the release of RESET_N, before its first frame start (R41, R167). -/
def released (mselLow : Bool) (s : State) : State :=
  s.setMgmt { s.mgmt with frame := if mselLow then .discarding else .none }

theorem execResetNReleased_of_reset (mselLow : Bool) {s : State} (hr : s.resetAsserted = true) :
    execResetNReleased mselLow s =
      .next (startResets Port.all (frameStart { released mselLow s with resetAsserted := false })) := if_pos hr

theorem execResetNReleased_of_released (mselLow : Bool) {s : State} (hr : s.resetAsserted = false) :
    execResetNReleased mselLow s = .next s := if_neg (by simp [hr])

theorem reached_resetNReleased (mselLow : Bool) (s : State) : Reached s (execResetNReleased mselLow s) := by
  cases hr : s.resetAsserted with
  | true =>
    rw [execResetNReleased_of_reset mselLow hr]
    have hfirst : Act (released mselLow s) (frameStart { released mselLow s with resetAsserted := false }) :=
      .firstFrame hr
    exact reached_next ((Relation.ReflTransGen.single (.framed _)).trans (.head hfirst (acts_startResets _ _)))
  | false =>
    rw [execResetNReleased_of_released mselLow hr]
    exact reached_next .refl

theorem reached_prstNAsserted (p : Port) (s : State) : Reached s (execPrstNAsserted p s) := by
  refine reached_next ?_
  split
  · exact .single (.line p true)
  · exact .head (.line p true) (.single (.portReset p))

theorem acts_earlyPulse (s : State) : Acts s (earlyPulse s) := .head (.counted _) (.single (.raised _))

theorem acts_missedPulse (s : State) : Acts s (missedPulse s) := .head (.counted _) (.single (.raised _))

theorem reached_syncInPulse (s : State) : Reached s (execSyncInPulse s) := by
  unfold execSyncInPulse
  split
  · exact reached_next .refl
  · next hr =>
    split
    · next hs => exact reached_next (.single (.frameStart (by simpa using hr) (.inl hs)))
    · exact reached_next (acts_earlyPulse s)
    · exact reached_next (acts_earlyPulse s)
    · exact reached_next .refl

theorem reached_syncWaitTimerExpiry (s : State) : Reached s (execSyncWaitTimerExpiry s) := by
  rcases execSyncWaitTimerExpiry_cases s with ⟨hd, h⟩ | ⟨_, hd, h⟩ | ⟨_, _, h⟩
  · rw [h]
    obtain ⟨hr, hs, _⟩ := (timerDue_iff s).1 hd
    exact reached_next ((acts_missedPulse s).tail (.frameStart hr (.inl hs)))
  · rw [h]
    exact reached_next ((acts_missedPulse s).tail (.gapMarkFirst hd))
  · rw [h]
    exact reached_next .refl

theorem reached_slotEnd (s : State) : Reached s (execSlotEnd s) := by
  rcases execSlotEnd_cases s with ⟨hd, h⟩ | ⟨_, hd, h⟩ | ⟨_, _, h⟩
  · rw [h]
    exact reached_next (.single (.slotEnd hd))
  · rw [h]
    exact reached_next (.single (.markFirst hd))
  · rw [h]
    exact reached_next .refl

theorem reached_wedge (s : State) : Reached s (execWedge s) := by
  rcases execWedge_cases s with ⟨hd, h⟩ | ⟨_, _, h⟩
  · rw [h]
    exact reached_next (.single (.wedge hd))
  · rw [h]
    exact reached_next .refl

/-- A beat time that a command holds back or lets pass. -/
theorem reached_beat {c : Bool} (s : State) (h : c = true → beatCanPass s = true) :
    Reached s (.next (if c then beatTime s else s)) := by
  refine reached_next ?_
  split
  · next hc => exact .single (.beat (h hc))
  · exact .refl

theorem reached_presentRequest (p : Port) (r : Request) (s : State) : Reached s (.next (presentRequest p r s)) := by
  refine reached_next ?_
  rcases presentRequest_cases p r s with ⟨_, h⟩ | ⟨_, hc, h⟩ | ⟨_, _, h⟩
  · rw [h]
  · rw [h]
    exact .single (.taken p r hc)
  · rw [h]
    exact .single (.presented p (some r))

theorem acts_takeWithheld (p : Port) (s : State) : Acts s (takeWithheld p s) := by
  rcases takeWithheld_cases p s with ⟨r, _, hc, h⟩ | ⟨_, h⟩
  · rw [h]
    refine .head (.presented p none) (.single (.taken (s := s.modPort p _) p r ?_))
    rw [canTake_iff] at hc ⊢
    simpa using hc
  · rw [h]

theorem reached_badFrame (bits : List Bool) (s : State) : Reached s (execBadFrame bits s) := by
  unfold execBadFrame
  split
  · exact reached_next (acts_endFrame _ s fun u _ => acts_respond _ .refl)
  · exact reached_refused s _

theorem reached_badCommand (bits : List Bool) (s : State) : Reached s (execBadCommand bits s) := by
  unfold execBadCommand
  split
  · exact reached_next (acts_endFrame _ s fun u _ => acts_respond _ .refl)
  · exact reached_refused s _

/-! ### Every command -/

/-- The ten rows of WRITE_SETTING, and the row of the other numbers. -/
theorem reached_writeSetting (number : Byte) (value : Half) (fill : Nat) (s : State) :
    Reached s (.next (command 0x02 (number :: halfBytes value) fill
      (writeSettingBody number.toNat value (settingEffect number.toNat)) s)) :=
  reached_command _ _ _ s fun _ hr => acts_writeSettingBody _ value hr

/-- Every command but the assertion of RESET_N is a course of happenings. -/
theorem exec_reached {c : Instr} (hc : c ≠ .resetNAsserted) (s : State) : Reached s (exec c s) := by
  cases c with
  | resetNAsserted => exact absurd rfl hc
  | resetNReleased mselLow => exact reached_resetNReleased mselLow s
  | prstNAsserted p => exact reached_prstNAsserted p s
  | prstNReleased p => exact reached_next (.single (.line p false))
  | syncInPulse => exact reached_syncInPulse s
  | syncWaitTimerExpiry => exact reached_syncWaitTimerExpiry s
  | maintReqAsserted => exact reached_next (.head (.maintReq true) (.single .maintGrant))
  | maintReqWithdrawn => exact reached_next (.single (.maintReq false))
  | maintGrant => exact reached_next (.single .maintGrant)
  | slotEnd => exact reached_slotEnd s
  | issueDecision => exact reached_beat s id
  | atomicWriteBeat => exact reached_beat s fun h => (Bool.and_eq_true_iff.1 h).1
  | memoryResponse status element => exact reached_next (.single (.response status element))
  | wedge => exact reached_wedge s
  | responseDelivery p => exact reached_next (.single (.delivery p))
  | linkDropTakesEffect p =>
    refine reached_next ?_
    split
    · exact .refl
    · exact .single (.drops p)
  | portResetEnd p => exact reached_next (.single (.portResetEnd p))
  | withheldRequestTaken p => exact reached_next (acts_takeWithheld p s)
  | read p size beats addr => exact reached_presentRequest p _ s
  | write p size addr data => exact reached_presentRequest p _ s
  | linkedRead p size addr => exact reached_presentRequest p _ s
  | conditionalWrite p size addr data => exact reached_presentRequest p _ s
  | swap p size addr value => exact reached_presentRequest p _ s
  | boundedAdd p size addr delta ceiling => exact reached_presentRequest p _ s
  | linkDrop p => exact reached_presentRequest p _ s
  | emptyFrame => exact reached_next (acts_endFrame _ s fun _ _ => .refl)
  | fillFrame n => exact reached_next (acts_endFrame _ s fun _ _ => .refl)
  | badFrame bits => exact reached_badFrame bits s
  | badCommand bits => exact reached_badCommand bits s
  | readSetting number fill =>
    refine reached_command _ _ _ s fun u _ => ?_
    split <;> exact .refl
  | writeSyncMode value fill => exact reached_writeSetting 0 value fill s
  | writeSyncWait value fill => exact reached_writeSetting 1 value fill s
  | writeLinkLimit value fill => exact reached_writeSetting 2 value fill s
  | writeLinkAgeLimit value fill => exact reached_writeSetting 3 value fill s
  | writeGranule value fill => exact reached_writeSetting 4 value fill s
  | writeMemSize value fill => exact reached_writeSetting 5 value fill s
  | writeMemTimeout value fill => exact reached_writeSetting 6 value fill s
  | writeWaitLimit value fill => exact reached_writeSetting 7 value fill s
  | writeSplitOk value fill => exact reached_writeSetting 8 value fill s
  | writeNoticeMask value fill => exact reached_writeSetting 9 value fill s
  | writeSetting number value fill => exact reached_writeSetting number value fill s
  | writeSlot index kind owner length donate fill =>
    exact reached_command _ _ _ s fun u _ => acts_shadowEdit fun hc => acts_writeSlotEdit index kind owner length donate hc
  | readSlot table index fill =>
    refine reached_command _ _ _ s fun u _ => ?_
    split <;> exact .refl
  | setFrameLen length fill =>
    exact reached_command _ _ _ s fun u _ => acts_shadowEdit fun hc => acts_setFrameLenEdit length hc
  | commitTable fill => exact reached_command _ _ _ s fun u _ => acts_commitBody u
  | cancelCommit fill => exact reached_command _ _ _ s fun _ _ => .single .cancel
  | copyActive fill =>
    exact reached_command _ _ _ s fun u _ => acts_shadowEdit fun hc => .single (.shadow _ hc fun ha _ => ha)
  | start fill => exact reached_command _ _ _ s fun _ hr => acts_startScheduler hr
  | stop fill => exact reached_command _ _ _ s fun _ hr => acts_stopScheduler hr
  | portEnable port fill =>
    exact reached_command _ _ _ s fun _ _ => acts_onPort port fun p => .single (.enable p)
  | portDisable port fill =>
    exact reached_command _ _ _ s fun _ _ => acts_onPort port fun p => .single (.disable p)
  | portReset port fill =>
    exact reached_command _ _ _ s fun _ _ => acts_onPort port fun p => .single (.portReset p)
  | readPort port fill => exact reached_command _ _ _ s fun _ _ => acts_onPort port fun _ => .refl
  | readLink position fill =>
    refine reached_command _ _ _ s fun u _ => ?_
    split <;> exact .refl
  | purgeLinks port fill => exact reached_command _ _ _ s fun u _ => acts_purgeBody port u
  | peekNotice fill => exact reached_command _ _ _ s fun _ _ => .refl
  | takeNotice fill => exact reached_command _ _ _ s fun u _ => acts_takeNoticeBody u
  | recover fill => exact reached_command _ _ _ s fun u _ => acts_recoverBody u
  | recoverForce fill => exact reached_command _ _ _ s fun u _ => acts_recoverForceBody u
  | clearState fill => exact reached_command _ _ _ s fun _ _ => .single .cleared
  | readGate fill => exact reached_command _ _ _ s fun _ _ => .refl

/-! ### What every happening keeps -/

theorem acts_keep {P : State → Prop} (h : ∀ s t, Act s t → P s → P t) {s t : State} (hc : Acts s t) (hs : P s) : P t := by
  induction hc with
  | refl => exact hs
  | tail _ ha ih => exact h _ _ ha ih

theorem pinReset_port (s : State) (p : Port) : (pinReset s).port p = resetPort (s.port p) := by fin_cases p <;> rfl

/-- What every happening and the assertion of RESET_N keep, every command keeps. -/
theorem exec_keeps {P : State → Prop} (h : ∀ s t, Act s t → P s → P t) (hr : ∀ s, P s → P (pinReset s)) {c : Instr}
    {s t : State} (hs : P s) (he : exec c s = .next t) : P t := by
  by_cases hc : c = .resetNAsserted
  · subst hc
    cases he
    exact hr s hs
  · exact acts_keep h (exec_reached hc s t he) hs

/-- What every command keeps and the queue of commands does not tell, every step keeps. -/
theorem step_keeps {P : State → Prop} (h : ∀ s t, Act s t → P s → P t) (hr : ∀ s, P s → P (pinReset s))
    (hp : ∀ s rest, P s → P (s.setPending rest)) {s t : State} (hs : P s) (he : step s = .next t) : P t := by
  unfold step at he
  split at he
  · cases he
    exact hs
  · exact exec_keeps h hr (hp s _ hs) he

end Sys2Proof.Proofs
end

section
/-! PROOF. The queue of commands, the completion of every command, the reset state, and the count of frame marks (R41, R43,
R168). -/

namespace Sys2Proof.Proofs

open Sys2Proof Sys2Proof.Machine Sys2Proof.Safety

/-! ### A setting stored -/

section
variable (t : Settings) (number value : Nat)

theorem storeSetting_syncMode :
    (storeSetting t number value).syncMode = if number = 0 then syncModeOf value else t.syncMode := by
  match number with
  | 0 | 1 | 2 | 3 | 4 | 5 | 6 | 7 | 8 | 9 => rfl
  | _ + 10 => rfl

theorem storeSetting_linkLimit :
    (storeSetting t number value).linkLimit = if number = 2 then value else t.linkLimit := by
  match number with
  | 0 | 1 | 2 | 3 | 4 | 5 | 6 | 7 | 8 | 9 => rfl
  | _ + 10 => rfl

theorem storeSetting_granule :
    (storeSetting t number value).granule = if number = 4 then value else t.granule := by
  match number with
  | 0 | 1 | 2 | 3 | 4 | 5 | 6 | 7 | 8 | 9 => rfl
  | _ + 10 => rfl

theorem storeSetting_noticeMask :
    (storeSetting t number value).noticeMask = if number = 9 then BitVec.ofNat 8 value else t.noticeMask := by
  match number with
  | 0 | 1 | 2 | 3 | 4 | 5 | 6 | 7 | 8 | 9 => rfl
  | _ + 10 => rfl

end

/-- The gate with a setting stored, before the side effect of the write (R172). -/
abbrev settingStored (number : Nat) (value : Half) (s : State) : State :=
  s.setSettings (storeSetting s.settings number value.toNat)

/-- A write of INTERNAL in GAP starts a frame under it (R46). -/
theorem settingWritten_internal_in_gap {value : Half} {s : State} (hs : s.sched.state = .gap) (hv : value.toNat = 0) :
    settingWritten 0 value s =
      frameStart ((settingStored 0 value s).setSched { s.sched with syncInForce := .internal }) := by
  have hm : (storeSetting s.settings 0 value.toNat).syncMode = .internal := by simp [storeSetting_syncMode, hv, syncModeOf]
  change syncModeEffect s.settings (settingStored 0 value s) = _
  unfold syncModeEffect
  simp [hs, hm]

/-- In STOPPED the mode in force takes the written one at once (R46). -/
theorem settingWritten_mode_in_stopped {value : Half} {s : State} (hs : s.sched.state = .stopped) :
    settingWritten 0 value s =
      (settingStored 0 value s).setSched { s.sched with syncInForce := syncModeOf value.toNat } := by
  change syncModeEffect s.settings (settingStored 0 value s) = _
  unfold syncModeEffect
  simp [hs, storeSetting_syncMode]

/-- In RUNNING and DRAINING, and on EXTERNAL in GAP, the written mode waits (R46). -/
theorem settingWritten_mode_waits {value : Half} {s : State} (hs : s.sched.state ≠ .stopped)
    (hv : s.sched.state = .gap → value.toNat ≠ 0) : settingWritten 0 value s = settingStored 0 value s := by
  change syncModeEffect s.settings (settingStored 0 value s) = _
  unfold syncModeEffect
  split
  · next hg hm =>
    have hne := hv hg
    simp [storeSetting_syncMode, syncModeOf, hne] at hm
  · next hst => exact absurd hst hs
  · rfl

/-- LINK_LIMIT lowered closes the older links of the ports (R62). -/
theorem settingWritten_limit_lowered {value : Half} {s : State} (h : value.toNat < s.settings.linkLimit) :
    settingWritten 2 value s = closeOlder (settingStored 2 value s) := if_pos h

theorem settingWritten_limit_kept {value : Half} {s : State} (h : s.settings.linkLimit ≤ value.toNat) :
    settingWritten 2 value s = settingStored 2 value s := if_neg (Nat.not_lt.2 h)

/-- A change of GRANULE closes every link (R61). -/
theorem settingWritten_granule_changed {value : Half} {s : State} (h : value.toNat ≠ s.settings.granule) :
    settingWritten 4 value s = purgeAll (settingStored 4 value s) := if_neg h

theorem settingWritten_granule_kept {value : Half} {s : State} (h : value.toNat = s.settings.granule) :
    settingWritten 4 value s = settingStored 4 value s := if_pos h

/-- A write of NOTICE_MASK recomputes the NOTICE line (R151). -/
theorem settingWritten_noticeMask (value : Half) (s : State) :
    settingWritten 9 value s =
      (settingStored 9 value s).setNotices
        { s.notices with line := noticeLine (BitVec.ofNat 8 value.toNat) s.notices.records } := rfl

/-- A setting whose rule gives no side effect is stored, and that is all (R172). -/
theorem settingWritten_plain {number : Nat} (h : number ≠ 0 ∧ number ≠ 2 ∧ number ≠ 4 ∧ number ≠ 9) (value : Half)
    (s : State) : settingWritten number value s = settingStored number value s := by
  obtain ⟨h0, h2, h4, h9⟩ := h
  unfold settingWritten settingEffect
  split
  · exact absurd rfl h0
  · exact absurd rfl h2
  · exact absurd rfl h4
  · exact absurd rfl h9
  · rfl

/-- What a write of a setting does, by what it brings about (R172). -/
theorem settingWritten_cases (number : Nat) (value : Half) (s : State) :
    (number = 0 ∧ s.sched.state = .gap ∧ value.toNat = 0 ∧
        settingWritten number value s =
          frameStart ((settingStored number value s).setSched { s.sched with syncInForce := .internal })) ∨
      (number = 0 ∧ s.sched.state = .stopped ∧
        settingWritten number value s =
          (settingStored number value s).setSched { s.sched with syncInForce := syncModeOf value.toNat }) ∨
      (number = 2 ∧ value.toNat < s.settings.linkLimit ∧
        settingWritten number value s = closeOlder (settingStored number value s)) ∨
      (number = 4 ∧ value.toNat ≠ s.settings.granule ∧
        settingWritten number value s = purgeAll (settingStored number value s)) ∨
      (number = 9 ∧
        settingWritten number value s =
          (settingStored number value s).setNotices
            { s.notices with line := noticeLine (BitVec.ofNat 8 value.toNat) s.notices.records }) ∨
      ((number = 0 → s.sched.state ≠ .stopped ∧ (s.sched.state = .gap → value.toNat ≠ 0)) ∧
        (number = 2 → s.settings.linkLimit ≤ value.toNat) ∧ (number = 4 → value.toNat = s.settings.granule) ∧
        number ≠ 9 ∧ settingWritten number value s = settingStored number value s) := by
  by_cases h0 : number = 0
  · subst h0
    by_cases hs : s.sched.state = .stopped
    · exact .inr (.inl ⟨rfl, hs, settingWritten_mode_in_stopped hs⟩)
    · by_cases hg : s.sched.state = .gap ∧ value.toNat = 0
      · exact .inl ⟨rfl, hg.1, hg.2, settingWritten_internal_in_gap hg.1 hg.2⟩
      · have hv : s.sched.state = .gap → value.toNat ≠ 0 := fun h hv => hg ⟨h, hv⟩
        exact .inr (.inr (.inr (.inr (.inr
          ⟨fun _ => ⟨hs, hv⟩, by simp, by simp, by simp, settingWritten_mode_waits hs hv⟩))))
  by_cases h2 : number = 2
  · subst h2
    by_cases hl : value.toNat < s.settings.linkLimit
    · exact .inr (.inr (.inl ⟨rfl, hl, settingWritten_limit_lowered hl⟩))
    · have hle := Nat.not_lt.1 hl
      exact .inr (.inr (.inr (.inr (.inr
        ⟨by simp, fun _ => hle, by simp, by simp, settingWritten_limit_kept hle⟩))))
  by_cases h4 : number = 4
  · subst h4
    by_cases hg : value.toNat = s.settings.granule
    · exact .inr (.inr (.inr (.inr (.inr
        ⟨by simp, by simp, fun _ => hg, by simp, settingWritten_granule_kept hg⟩))))
    · exact .inr (.inr (.inr (.inl ⟨rfl, hg, settingWritten_granule_changed hg⟩)))
  by_cases h9 : number = 9
  · subst h9
    exact .inr (.inr (.inr (.inr (.inl ⟨rfl, settingWritten_noticeMask value s⟩))))
  · exact .inr (.inr (.inr (.inr (.inr
      ⟨fun h => absurd h h0, fun h => absurd h h2, fun h => absurd h h4, h9,
        settingWritten_plain ⟨h0, h2, h4, h9⟩ value s⟩))))

/-! ### PORT_DISABLE -/

/-- A disabled port: its record, and its links when it becomes DISABLED (R125). -/
theorem disablePort_cases (p : Port) (s : State) :
    ((s.port p).state = .opened ∧ (s.port p).queue = [] ∧
        disablePort p s = purgePort p (s.modPort p fun x => { x with enabled := false, state := .disabled })) ∨
      ((s.port p).state = .opened ∧ (s.port p).queue ≠ [] ∧
        disablePort p s = s.modPort p fun x => { x with enabled := false, state := .halting }) ∨
      ((s.port p).state ≠ .opened ∧ disablePort p s = s.modPort p fun x => { x with enabled := false }) := by
  unfold disablePort
  cases hs : (s.port p).state with
  | opened =>
    by_cases hq : (s.port p).queue = []
    · exact .inl ⟨rfl, hq, if_pos hq⟩
    · exact .inr (.inl ⟨rfl, hq, if_neg hq⟩)
  | halting => exact .inr (.inr ⟨by simp, rfl⟩)
  | disabled => exact .inr (.inr ⟨by simp, rfl⟩)
  | resetting => exact .inr (.inr ⟨by simp, rfl⟩)

/-- PORT_DISABLE reaches the ports and the links alone. -/
theorem disablePort_frame (p : Port) (s : State) :
    disablePort p s = { s with ports := (disablePort p s).ports, links := (disablePort p s).links } := by
  rcases disablePort_cases p s with ⟨_, _, h⟩ | ⟨_, _, h⟩ | ⟨_, h⟩ <;> rw [h] <;> rfl

/-! ### The queue of commands -/

theorem settingWritten_pending (number : Nat) (value : Half) (s : State) :
    (settingWritten number value s).pending = s.pending := by
  rcases settingWritten_cases number value s with ⟨_, _, _, h⟩ | ⟨_, _, h⟩ | ⟨_, _, h⟩ | ⟨_, _, h⟩ | ⟨_, h⟩ |
    ⟨_, _, _, _, h⟩
  · rw [h, frameStart_pending]
    rfl
  all_goals
    rw [h]
    rfl

theorem act_pending {s t : State} (h : Act s t) : t.pending = s.pending := by
  cases h with
  | framed _ | counted _ | raised _ | line _ _ | presented _ _ | recovery _ | maintReq _ | enable _
  | purgePort _ | purgeAll | noticeTaken | cleared | shadow _ _ _ | swap _ _ | commit _ | cancel | drain _ _ => rfl
  | firstFrame _ => exact frameStart_pending _
  | setting number value _ _ => exact settingWritten_pending number value s
  | disable p => rw [disablePort_frame]
  | _ => simp

/-- Settles O2: no happening touches the queue of commands. -/
theorem execLeavesTheQueueAlone : Obligations.ExecLeavesTheQueueAlone := fun _ s _ h =>
  exec_keeps (P := fun u => u.pending = s.pending) (fun _ _ ha hu => (act_pending ha).trans hu) (fun _ hu => hu) rfl h

/-- Settles O1: both clauses are the two cases of the step. -/
theorem stepRunsTheFrontCommand : Obligations.StepRunsTheFrontCommand := fun _ _ _ => ⟨rfl, rfl⟩

/-! ### Completion -/

theorem isBadFrame_iff (bits : List Bool) : isBadFrame bits = true ↔ ∃ code, classifyFrame bits = .badFrame code := by
  unfold isBadFrame
  cases classifyFrame bits <;> simp

theorem isBadCommand_iff (bits : List Bool) :
    isBadCommand bits = true ↔ ∃ code, classifyFrame bits = .badCommand code := by
  unfold isBadCommand
  cases classifyFrame bits <;> simp

/-- The outcome is a next state for a command that is well-formed, and otherwise that or the one refusal (log 19). -/
abbrev CompletesIfWf (wf : Bool) (o : Host.Outcome State Fault Refusal) : Prop :=
  (wf = true → ∃ t, o = .next t) ∧ ∀ r, o = .refused r → wf = false ∧ r = .notThisFrame

theorem completesIfWf_next (wf : Bool) (t : State) : CompletesIfWf wf (.next t) :=
  ⟨fun _ => ⟨t, rfl⟩, fun _ h => nomatch h⟩

theorem completesIfWf_badFrame (bits : List Bool) (s : State) :
    CompletesIfWf (isBadFrame bits) (execBadFrame bits s) := by
  unfold execBadFrame
  split
  · exact completesIfWf_next _ _
  · next hn =>
    have hf : ¬isBadFrame bits = true := fun h => by
      obtain ⟨code, hc⟩ := (isBadFrame_iff bits).1 h
      exact hn code hc
    exact ⟨fun h => absurd h hf, by rintro r ⟨rfl⟩; exact ⟨by simpa using hf, rfl⟩⟩

theorem completesIfWf_badCommand (bits : List Bool) (s : State) :
    CompletesIfWf (isBadCommand bits) (execBadCommand bits s) := by
  unfold execBadCommand
  split
  · exact completesIfWf_next _ _
  · next hn =>
    have hf : ¬isBadCommand bits = true := fun h => by
      obtain ⟨code, hc⟩ := (isBadCommand_iff bits).1 h
      exact hn code hc
    exact ⟨fun h => absurd h hf, by rintro r ⟨rfl⟩; exact ⟨by simpa using hf, rfl⟩⟩

theorem completesIfWf_resetNReleased (mselLow : Bool) (s : State) :
    CompletesIfWf true (execResetNReleased mselLow s) := by
  unfold execResetNReleased
  split <;> exact completesIfWf_next _ _

theorem completesIfWf_syncInPulse (s : State) : CompletesIfWf true (execSyncInPulse s) := by
  unfold execSyncInPulse
  split
  · exact completesIfWf_next _ _
  · split <;> exact completesIfWf_next _ _

/-- Settles O3: the meanings of all commands but BAD_FRAME and BAD_COMMAND end in a next state by their form, and those two
do on their own frames. -/
theorem everyWellFormedCommandCompletes : Obligations.EveryWellFormedCommandCompletes := by
  intro c s
  cases c with
  | badFrame bits => exact completesIfWf_badFrame bits s
  | badCommand bits => exact completesIfWf_badCommand bits s
  | resetNReleased mselLow => exact completesIfWf_resetNReleased mselLow s
  | syncInPulse => exact completesIfWf_syncInPulse s
  | _ => exact completesIfWf_next _ _

/-! ### The reset state -/

theorem frameInv_reset : FrameInv State.reset := ⟨by decide, by decide, by decide, by decide⟩

theorem linkInv_reset : LinkInv State.reset := by decide

theorem portsInv_reset : PortsInv State.reset := by decide

theorem noticeInv_reset : NoticeInv State.reset := by decide

theorem pathInv_reset : PathInv State.reset := by decide

theorem queueInv_reset : QueueInv State.reset := by decide

/-- Settles O4: each block's reset values meet its own laws, by evaluation. -/
theorem resetStateMeetsEveryInvariant : Obligations.ResetStateMeetsEveryInvariant :=
  ⟨frameInv_reset, rfl, pathInv_reset, linkInv_reset, portsInv_reset, noticeInv_reset, queueInv_reset⟩

/-! ### The count of frame marks -/

/-- FRAME_NUMBER and the count of its pulses move alike, or stand (R43). -/
abbrev MarksCounted (s t : State) : Prop :=
  (t.frameMarks = s.frameMarks ∧ t.sched.frameNumber = s.sched.frameNumber) ∨
    (t.frameMarks = s.frameMarks + 1 ∧ t.sched.frameNumber = s.sched.frameNumber + 1)

theorem frameCountInv_of_marksCounted {s t : State} (h : MarksCounted s t) (hs : FrameCountInv s) : FrameCountInv t := by
  unfold FrameCountInv at *
  rcases h with ⟨hm, hn⟩ | ⟨hm, hn⟩
  · rw [hm, hn, hs]
  · rw [hm, hn, ← hs, BitVec.ofNat_add]
    rfl

theorem marksCounted_of_frameStarted {s t : State} (h : FrameStarted s t) :
    t.frameMarks = s.frameMarks + 1 ∧ t.sched.frameNumber = s.sched.frameNumber + 1 := by
  dsimp only [FrameStarted] at h
  obtain ⟨_, _, _, _, _, _, ht⟩ := h
  rw [ht]
  exact ⟨rfl, rfl⟩

theorem marksCounted_frameStart (s : State) : MarksCounted s (frameStart s) :=
  .inr (marksCounted_of_frameStarted (frameStart_spec s))

/-- The mark taken ahead of a beat time, the beat time, and the slot that follows count the frame once. -/
theorem marksCounted_of_markTaken {s u v t : State} {i : Fin 32} (hu : MarkTaken s u) (ht : SlotStarted v t i)
    (hv : v.frameMarks = (beatTime u).frameMarks ∧ v.sched.frameNumber = (beatTime u).sched.frameNumber) :
    MarksCounted s t := by
  dsimp only [SlotStarted] at ht
  dsimp only [MarkTaken] at hu
  obtain ⟨_, _, ht⟩ := ht
  obtain ⟨_, _, _, hu⟩ := hu
  right
  rw [ht]
  dsimp only
  rw [hv.1, hv.2, (beatTime_frame u).1, hu]
  exact ⟨rfl, rfl⟩

theorem marksCounted_endSlot (s : State) : MarksCounted s (endSlot s) := by
  rcases endSlot_cases s with ⟨_, h⟩ | ⟨_, _, h⟩ | ⟨_, _, _, h⟩ | ⟨_, _, _, h⟩
  · left
    rw [h]
    exact ⟨rfl, rfl⟩
  · dsimp only [SlotStarted] at h
    left
    rw [h.2.2]
    exact ⟨rfl, rfl⟩
  · obtain ⟨hm, hn⟩ := marksCounted_of_frameStarted h
    exact .inr ⟨hm, hn⟩
  · left
    rw [h]
    exact ⟨rfl, rfl⟩

theorem marksCounted_settingWritten (number : Nat) (value : Half) (s : State) :
    MarksCounted s (settingWritten number value s) := by
  rcases settingWritten_cases number value s with ⟨_, _, _, h⟩ | ⟨_, _, h⟩ | ⟨_, _, h⟩ | ⟨_, _, h⟩ | ⟨_, h⟩ |
    ⟨_, _, _, _, h⟩
  · rw [h]
    obtain ⟨hm, hn⟩ := marksCounted_of_frameStarted (frameStart_spec ((settingStored number value s).setSched _))
    exact .inr ⟨hm, hn⟩
  all_goals
    rw [h]
    exact .inl ⟨rfl, rfl⟩

theorem frameCountInv_act {s t : State} (h : Act s t) (hs : FrameCountInv s) : FrameCountInv t := by
  cases h with
  | firstFrame _ => exact frameCountInv_of_marksCounted (marksCounted_frameStart _) hs
  | frameStart _ _ => exact frameCountInv_of_marksCounted (marksCounted_frameStart s) hs
  | gapMarkFirst _ =>
    obtain ⟨u, hu, ht⟩ := gapMarkFirst_spec s
    exact frameCountInv_of_marksCounted (marksCounted_of_markTaken hu ht ⟨rfl, rfl⟩) hs
  | markFirst _ =>
    obtain ⟨u, hu, ht⟩ := markFirst_spec s
    exact frameCountInv_of_marksCounted (marksCounted_of_markTaken hu ht ⟨rfl, rfl⟩) hs
  | slotEnd _ => exact frameCountInv_of_marksCounted (marksCounted_endSlot s) hs
  | setting number value _ _ => exact frameCountInv_of_marksCounted (marksCounted_settingWritten number value s) hs
  | framed _ | counted _ | raised _ | line _ _ | presented _ _ | recovery _ | maintReq _ | enable _
  | purgePort _ | purgeAll | noticeTaken | cleared | shadow _ _ _ | swap _ _ | commit _ | cancel | drain _ _
  | enterGap _ _ _ => exact hs
  | beat _ =>
    rw [(beatTime_frame s).1]
    exact hs
  | enterStopped _ _ =>
    rw [enterStopped_spec s]
    exact hs
  | disable p =>
    rw [disablePort_frame]
    exact hs
  | _ => simpa [FrameCountInv] using hs

/-- Settles O6: every happening counts a frame in both places or in neither, and a pin reset clears both. -/
theorem frameNumberCountsFrameMarks : Obligations.FrameNumberCountsFrameMarks := fun _ _ hs h =>
  step_keeps (P := FrameCountInv) (fun _ _ ha => frameCountInv_act ha) (fun _ _ => rfl) (fun _ _ h => h) hs h

end Sys2Proof.Proofs
end

section
/-! PROOF. The responses of the memory controller (R68, R101 to R104, R107, R111, R133, R136 to R138). -/

namespace Sys2Proof.Proofs

open Sys2Proof Sys2Proof.Machine Sys2Proof.Safety

/-! ### The queue of a port changed in one entry -/

/-- A change that leaves the entries with the identity as they are leaves the queue. -/
theorem changed_of_fixed {id : Nat} {f : Entry → Entry} {q : List Entry} (h : ∀ e, f e = e) : changed id f q = q := by
  have hf : (fun e => if e.id = id then f e else e) = fun e : Entry => e := by
    funext e
    rw [h, ite_self]
  rw [changed, hf, List.map_id']

/-- Two changes of the same entry are one, if the first keeps its identity. -/
theorem changed_changed {id : Nat} {f g : Entry → Entry} (hid : ∀ e, (f e).id = e.id) (q : List Entry) :
    changed id g (changed id f q) = changed id (fun e => g (f e)) q := by
  unfold changed
  rw [List.map_map]
  congr 1
  funext e
  by_cases h : e.id = id <;> simp [h, hid]

/-! ### What a response learns -/

/-- A MEMERR of a beat is the first of its entry (R137), as the statements write it. -/
theorem firstMemerr_eq (s : State) (b : BeatRecord) :
    firstMemerr s b = ((s.port b.port).queue.find? fun e => e.id == b.entry).any fun e => e.firstBad.isNone := by
  unfold firstMemerr
  cases (s.port b.port).queue.find? fun e => e.id == b.entry <;> rfl

/-- The status of a response is noted (R136, R137): the entry's first bad beat, and MEM_FAULT. -/
def noteStatus (b : BeatRecord) (bad : Bool) (s : State) : State := if bad then noteMemerr b s else s

/-- The link of a failed LINKED READ beat closes FAULTED (R68). -/
def noteLink (b : BeatRecord) (bad : Bool) (s : State) : State :=
  if bad && b.kind == .linkedRead then faultedClose b s else s

/-- The element of a read beat is stored (R136). -/
def noteElement (b : BeatRecord) (element : Elem) (s : State) : State :=
  if b.kind == .read || b.kind == .linkedRead then storeElement b element s else s

/-- A response to a beat that is no atomic read beat is noted in four parts and then completes its entry (R136). -/
theorem handResponse_eq {b : BeatRecord} (hk : b.kind ≠ .atomicRead) (status : MemStatus) (element : Elem) (s : State) :
    handResponse b status element s =
      completeEntry b.port b.entry
        (noteElement b element (noteLink b (status == .memerr) (noteStatus b (status == .memerr) s))) := by
  unfold handResponse noteElement noteLink noteStatus
  cases h : b.kind with
  | atomicRead => exact absurd h hk
  | _ => cases status <;> rfl

/-- The MEMERR of this response is the first of its entry. -/
def firstBadHere (s : State) (b : BeatRecord) (bad : Bool) : Bool := bad && firstMemerr s b

/-- The entry with the index of its first bad beat noted (R136). -/
def withFirstBad (first : Bool) (index : Nat) (e : Entry) : Entry :=
  { e with firstBad := if first then some index else e.firstBad }

/-- The entry with a read element stored, unless it is marked for discard (R136). -/
def withElement (brings : Bool) (element : Elem) (e : Entry) : Entry :=
  { e with data := if brings && !e.marked then e.data ++ [maskElem e.req.bytes element] else e.data }

theorem withFirstBad_false (index : Nat) (e : Entry) : withFirstBad false index e = e := rfl

theorem withElement_false (element : Elem) (e : Entry) : withElement false element e = e := rfl

theorem withElement_true (element : Elem) (e : Entry) :
    withElement true element e = if e.marked then e else { e with data := e.data ++ [maskElem e.req.bytes element] } := by
  unfold withElement
  by_cases h : e.marked = true
  · have hm : (true && !e.marked) = false := by simp [h]
    rw [if_pos h, hm]
    rfl
  · simp [h]

theorem noteStatus_eq (b : BeatRecord) (bad : Bool) (s : State) :
    noteStatus b bad s =
      ({ s with
          notices :=
            if firstBadHere s b bad then
              s.notices.raise s.settings.noticeMask (.memFault b.port b.addr) s.sched.frameNumber
            else s.notices } : State).setPort b.port
        { s.port b.port with
          queue := changed b.entry (withFirstBad (firstBadHere s b bad) b.index) (s.port b.port).queue } := by
  have hnone : s.setPort b.port
      { s.port b.port with queue := changed b.entry (withFirstBad false b.index) (s.port b.port).queue } = s := by
    rw [changed_of_fixed (withFirstBad_false b.index)]
    exact setPort_port s b.port
  unfold noteStatus firstBadHere
  cases bad with
  | false => exact hnone.symm
  | true =>
    rcases noteMemerr_cases b s with ⟨hf, h⟩ | ⟨hf, h⟩
    · rw [if_pos rfl, h, hf]
      rfl
    · rw [if_pos rfl, h, hf]
      exact hnone.symm

/-- The link that a failed LINKED READ beat closes (R68). -/
def faultedBy (b : BeatRecord) (bad : Bool) (l : Link) : Bool :=
  bad && b.kind == .linkedRead && l.holder == b.port && l.openedBy == b.serial

theorem linksOf_faultedBy (s : State) (b : BeatRecord) (bad : Bool) (r : Port) :
    linksOf s r (faultedBy b bad) = if r = b.port then s.links.countP (faultedBy b bad) else 0 := by
  unfold linksOf
  split
  · next hr =>
    subst hr
    apply List.countP_congr
    intro l _
    simp only [faultedBy, Bool.and_eq_true, beq_iff_eq]
    tauto
  · next hr =>
    simp only [List.countP_eq_zero, faultedBy, Bool.and_eq_true, beq_iff_eq, not_and]
    intro l _ h hl
    exact hr (hl.symm.trans h.1.2)

theorem noteLink_eq (b : BeatRecord) (bad : Bool) (s : State) :
    noteLink b bad s = closeWhere (faultedBy b bad) .faulted s := by
  unfold noteLink
  cases hc : bad && b.kind == .linkedRead with
  | true =>
    rw [if_pos rfl]
    unfold faultedClose faultedBy
    simp only [hc, Bool.true_and]
  | false =>
    have hnone : faultedBy b bad = fun _ => false := by
      funext l
      simp [faultedBy, hc]
    rw [if_neg (by simp), hnone]
    refine (state_ext_ports (fun p => ?_) ?_).symm
    · rw [closeWhere_port]
      simp [linksOf]
    · apply state_eq <;> first | rfl | simp

theorem noteElement_eq (b : BeatRecord) (element : Elem) (s : State) :
    noteElement b element s =
      s.modPort b.port
        (modEntry b.entry (withElement (b.kind == .read || b.kind == .linkedRead) element)) := by
  unfold noteElement
  cases b.kind == .read || b.kind == .linkedRead with
  | true =>
    have hf : withElement true element =
        fun e => if e.marked then e else { e with data := e.data ++ [maskElem e.req.bytes element] } := by
      funext e
      exact withElement_true element e
    rw [if_pos rfl, hf]
    rfl
  | false =>
    rw [if_neg (by simp), modPort_eq]
    have hq : modEntry b.entry (withElement false element) (s.port b.port) = s.port b.port := by
      have hc := changed_of_fixed (id := b.entry) (q := (s.port b.port).queue) (withElement_false element)
      unfold changed at hc
      unfold modEntry
      rw [hc]
    rw [hq, setPort_port]

/-! ### A response matched to a beat -/

/-- The mask of an element, as the statements write it (R117). -/
theorem maskElem_eq (r : Request) (element : Elem) :
    maskElem r.bytes element = BitVec.ofNat 64 (element.toNat % 256 ^ 2 ^ r.size.toNat) := by
  unfold maskElem Request.bytes sizeBytes
  rw [Nat.pow_mul]

/-- What a response leaves of an entry (R128, R136): `waits` says that another of its beats is outstanding or that the
atomic record holds its update. -/
def entryAfter (id : Nat) (waits : Bool) (learns : Entry → Entry) (e : Entry) : Option Entry :=
  if e.id ≠ id then some e
  else if waits then some (learns e)
  else if e.marked then none
  else if e.state = .issued then some { learns e with state := .ready (outcomeOf (learns e)) }
  else some (learns e)

theorem filterMap_entryAfter_of_waits (id : Nat) (learns : Entry → Entry) (q : List Entry) :
    q.filterMap (entryAfter id true learns) = changed id learns q := by
  unfold changed
  rw [← List.filterMap_eq_map]
  apply List.filterMap_congr
  intro e _
  by_cases h : e.id = id <;> simp [entryAfter, h]

/-- The completion of an entry behind what was learnt of it. -/
theorem filterMap_complete_changed {id : Nat} {learns : Entry → Entry}
    (hl : ∀ e, (learns e).id = e.id ∧ (learns e).marked = e.marked ∧ (learns e).state = e.state) (q : List Entry) :
    (changed id learns q).filterMap
        (fun e =>
          if e.id ≠ id then some e
          else if e.marked then none
          else if e.state = .issued then some { e with state := .ready (outcomeOf e) }
          else some e) =
      q.filterMap (entryAfter id false learns) := by
  unfold changed
  rw [List.filterMap_map]
  apply List.filterMap_congr
  intro e _
  obtain ⟨hid, hm, hs⟩ := hl e
  by_cases h : e.id = id <;> simp [entryAfter, h, hid, hm, hs]

/-- The entry with what a response tells of it. -/
def learnt (s : State) (b : BeatRecord) (bad : Bool) (element : Elem) (e : Entry) : Entry :=
  withElement (b.kind == .read || b.kind == .linkedRead) element (withFirstBad (firstBadHere s b bad) b.index e)

/-- Another beat of the entry is outstanding, or the atomic record holds its update. -/
def stillWaits (s : State) (id : Nat) : Bool := beatOutstanding s id || inAtomicRecord s id

theorem inAtomicRecord_eq (s : State) (id : Nat) : inAtomicRecord s id = s.atomic.any fun a => a.entry == id := by
  unfold inAtomicRecord
  cases s.atomic <;> rfl

/-- The port of the beat after a response to it, but for the loss record. -/
theorem completeEntry_port_learnt (b : BeatRecord) (s : State) {learns : Entry → Entry}
    (hl : ∀ e, (learns e).id = e.id ∧ (learns e).marked = e.marked ∧ (learns e).state = e.state) {q : List Entry}
    (hq : (s.port b.port).queue = changed b.entry learns q) :
    (completeEntry b.port b.entry s).port b.port =
      { s.port b.port with queue := q.filterMap (entryAfter b.entry (stillWaits s b.entry) learns) } := by
  rw [completeEntry_port]
  cases hw : stillWaits s b.entry with
  | true =>
    have hn : ¬(b.port = b.port ∧ beatOutstanding s b.entry = false ∧ inAtomicRecord s b.entry = false) := by
      rintro ⟨_, h1, h2⟩
      simp [stillWaits, h1, h2] at hw
    rw [if_neg hn, filterMap_entryAfter_of_waits, ← hq]
  | false =>
    have hn : beatOutstanding s b.entry = false ∧ inAtomicRecord s b.entry = false := by
      simpa [stillWaits] using hw
    rw [if_pos ⟨rfl, hn⟩, hq, filterMap_complete_changed hl]

theorem learnt_keeps (s : State) (b : BeatRecord) (bad : Bool) (element : Elem) (e : Entry) :
    (learnt s b bad element e).id = e.id ∧ (learnt s b bad element e).marked = e.marked ∧
      (learnt s b bad element e).state = e.state := ⟨rfl, rfl, rfl⟩

/-- The gate as the response finds it, its beat gone from the list (R136). -/
abbrev withoutBeat (s : State) (rest : List BeatRecord) : State := s.setMem { s.mem with outstanding := rest }

/-- The gate with all that the response tells noted, its entry not yet completed. -/
def responseNoted (s : State) (b : BeatRecord) (bad : Bool) (element : Elem) : State :=
  noteElement b element (noteLink b bad (noteStatus b bad s))

/-- The port of the beat, with what the response told of its entry. -/
theorem responseNoted_port_self (s : State) (b : BeatRecord) (bad : Bool) (element : Elem) :
    (responseNoted s b bad element).port b.port =
      { recordLoss .faulted (s.links.countP (faultedBy b bad)) (s.port b.port) with
        queue := changed b.entry (learnt s b bad element) (s.port b.port).queue } := by
  unfold responseNoted
  rw [noteElement_eq, noteLink_eq, noteStatus_eq, port_modPort_self, closeWhere_port, linksOf_faultedBy, if_pos rfl,
    port_setPort_self]
  change modEntry b.entry _ (recordLoss _ (s.links.countP _) _) = _
  simp only [recordLoss_eq, modEntry]
  refine congrArg (fun q => ({ s.port b.port with queue := q, lastLoss := _, lossCount := _ } : PortRec)) ?_
  exact changed_changed (id := b.entry) (f := withFirstBad (firstBadHere s b bad) b.index)
    (g := withElement (b.kind == .read || b.kind == .linkedRead) element) (fun _ => rfl) (s.port b.port).queue

theorem responseNoted_port_ne (s : State) (b : BeatRecord) (bad : Bool) (element : Elem) {r : Port} (h : r ≠ b.port) :
    (responseNoted s b bad element).port r = s.port r := by
  unfold responseNoted
  rw [noteElement_eq, noteLink_eq, noteStatus_eq, port_modPort_ne _ _ h, closeWhere_port, linksOf_faultedBy, if_neg h,
    recordLoss_zero, port_setPort_ne _ _ h]
  rfl

theorem responseNoted_frame (s : State) (b : BeatRecord) (bad : Bool) (element : Elem) :
    responseNoted s b bad element =
      { s with
        ports := (responseNoted s b bad element).ports
        links := s.links.filter fun l => !faultedBy b bad l
        notices :=
          if firstBadHere s b bad then
            s.notices.raise s.settings.noticeMask (.memFault b.port b.addr) s.sched.frameNumber
          else s.notices } := by
  unfold responseNoted
  rw [noteElement_eq, noteLink_eq, noteStatus_eq]
  rfl

/-- The first bad beat that the statements note is the one the gate notes. -/
theorem firstBadHere_eq (s : State) (b : BeatRecord) (bad : Bool) (rest : List BeatRecord) :
    (bad && ((s.port b.port).queue.find? fun e => e.id == b.entry).any fun e => e.firstBad.isNone) =
      firstBadHere (withoutBeat s rest) b bad := by
  unfold firstBadHere
  rw [firstMemerr_eq]
  rfl

theorem stillWaits_eq (s : State) (b : BeatRecord) (bad : Bool) (element : Elem) :
    stillWaits (responseNoted s b bad element) b.entry =
      (s.mem.outstanding.any (fun c => c.entry == b.entry) || s.atomic.any fun a => a.entry == b.entry) := by
  unfold stillWaits beatOutstanding
  rw [inAtomicRecord_eq, responseNoted_frame]

/-- What the statements write of an entry after a response is what the gate makes of it. -/
theorem entryAfter_matched (s : State) (b : BeatRecord) (bad waits : Bool) (element : Elem) (e : Entry) :
    (let learns := fun e : Entry =>
        { e with
          firstBad := if firstBadHere s b bad then some b.index else e.firstBad
          data :=
            if (b.kind == .read || b.kind == .linkedRead) && !e.marked then
              e.data ++ [BitVec.ofNat 64 (element.toNat % 256 ^ 2 ^ e.req.size.toNat)]
            else e.data };
      if e.id ≠ b.entry then some e
      else if waits then some (learns e)
      else if e.marked then none
      else if e.state = .issued then
        some { learns e with state := .ready (if (learns e).firstBad.isSome then .memerr else .done) }
      else some (learns e)) = entryAfter b.entry waits (learnt s b bad element) e := by
  have hl : learnt s b bad element =
      fun e : Entry =>
        { e with
          firstBad := if firstBadHere s b bad then some b.index else e.firstBad
          data :=
            if (b.kind == .read || b.kind == .linkedRead) && !e.marked then
              e.data ++ [BitVec.ofNat 64 (element.toNat % 256 ^ 2 ^ e.req.size.toNat)]
            else e.data } := by
    funext e
    unfold learnt withElement withFirstBad
    dsimp only
    rw [maskElem_eq]
  unfold entryAfter outcomeOf
  rw [hl]

/-- A response to a beat that is no atomic read beat leaves the gate as the statements write it (R68, R128, R136,
R137). -/
theorem handResponse_matched {s : State} {b : BeatRecord} (rest : List BeatRecord) (hk : b.kind ≠ .atomicRead)
    (status : MemStatus) (element : Elem) :
    handResponse b status element (withoutBeat s rest) = matched s b rest (status == .memerr) element := by
  set bad := status == .memerr
  have hq : ((responseNoted (withoutBeat s rest) b bad element).port b.port).queue =
      changed b.entry (learnt (withoutBeat s rest) b bad element) (s.port b.port).queue := by
    rw [responseNoted_port_self]
    rfl
  rw [handResponse_eq hk]
  change completeEntry b.port b.entry (responseNoted (withoutBeat s rest) b bad element) = _
  refine state_ext_ports (fun r => ?_) ?_
  · by_cases hr : r = b.port
    · subst hr
      rw [completeEntry_port_learnt b _ (learnt_keeps (withoutBeat s rest) b bad element) hq, responseNoted_port_self,
        stillWaits_eq]
      unfold matched
      dsimp only
      rw [port_setPort_self, recordLoss_eq, firstBadHere_eq s b bad rest]
      have hfun := funext (entryAfter_matched (withoutBeat s rest) b bad
        (rest.any (fun c => c.entry == b.entry) || s.atomic.any fun a => a.entry == b.entry) element)
      dsimp only at hfun
      rw [hfun]
      rfl
    · rw [completeEntry_port, if_neg (fun h => hr h.1), responseNoted_port_ne _ _ _ _ hr]
      unfold matched
      dsimp only
      rw [port_setPort_ne _ _ hr]
      rfl
  · rw [completeEntry_frame, responseNoted_frame]
    unfold matched
    dsimp only
    rw [firstBadHere_eq s b bad rest]
    rfl

theorem takeResponse_of_outstanding {s : State} {b : BeatRecord} {rest : List BeatRecord} (hr : s.resetAsserted = false)
    (ho : s.mem.outstanding = b :: rest) (status : MemStatus) (element : Elem) :
    takeResponse status element s = grantMaint (handResponse b status element (withoutBeat s rest)) := by
  unfold takeResponse
  rw [if_neg (by simp [hr]), ho]

theorem exec_memoryResponse (status : MemStatus) (element : Elem) (s : State) :
    exec (.memoryResponse status element) s = .next (takeResponse status element s) := rfl

/-- Settles O38: the response is noted at its entry, at its link and in the notices, and completes the entry; MAINT_GRANT
follows. -/
theorem responseIsMatchedToTheOldestBeat : Obligations.ResponseIsMatchedToTheOldestBeat := by
  intro s status element b rest hr ho hk
  refine ⟨_, exec_memoryResponse status element s, ?_⟩
  rw [takeResponse_of_outstanding hr ho, handResponse_matched rest hk]
  exact grantMaint_spec _

/-! ### The response to an atomic read beat -/

/-- The low word of an element (R107, R117). -/
theorem setWidth_elem (x : Elem) : x.setWidth 32 = BitVec.ofNat 32 x.toNat := by
  apply BitVec.eq_of_toNat_eq
  simp

theorem atomicResult_swap (v old : Word) : atomicResult (.swap v) old = (v, none) := rfl

theorem atomicResult_below {delta ceiling old : Word} (h : (old.toNat : Int) + delta.toInt < 0) :
    atomicResult (.boundedAdd delta ceiling) old = (0, some true) := if_pos h

theorem atomicResult_above {delta ceiling old : Word} (h : 0 ≤ (old.toNat : Int) + delta.toInt)
    (hc : (ceiling.toNat : Int) < old.toNat + delta.toInt) :
    atomicResult (.boundedAdd delta ceiling) old = (ceiling, some true) := by
  unfold atomicResult
  dsimp only
  rw [if_neg (Int.not_lt.2 h), if_pos hc]

theorem atomicResult_within {delta ceiling old : Word} (h : 0 ≤ (old.toNat : Int) + delta.toInt)
    (hc : (old.toNat : Int) + delta.toInt ≤ ceiling.toNat) :
    atomicResult (.boundedAdd delta ceiling) old =
      (BitVec.ofNat 32 ((old.toNat : Int) + delta.toInt).toNat, some false) := by
  unfold atomicResult
  dsimp only
  rw [if_neg (Int.not_lt.2 h), if_neg (Int.not_lt.2 hc)]
  congr 1
  rw [← BitVec.ofInt_natCast, Int.toNat_of_nonneg h]

/-- The port of an atomic update with a clamp counted (R104). -/
def clampNoted (clamps : Bool) (x : PortRec) : PortRec :=
  { x with clampCount := if clamps then satInc x.clampCount else x.clampCount }

/-- No maintenance window is granted while an atomic update is in progress (R145). -/
theorem grantMaint_of_atomic {s : State} (h : s.atomic.isNone = false) : grantMaint s = s := by
  unfold grantMaint
  rw [if_neg]
  unfold maintDue
  simp [h]

/-- The response OK to the read beat of an atomic update, with the result of the update (R107). -/
theorem exec_atomicRead_ok {s : State} {b : BeatRecord} {rest : List BeatRecord} {a : AtomicRecord} {new : Word}
    {clamped : Option Bool} {element : Elem} (hr : s.resetAsserted = false) (ho : s.mem.outstanding = b :: rest)
    (hk : b.kind = .atomicRead) (ha : s.atomic = some a)
    (h : atomicResult a.op (BitVec.ofNat 32 element.toNat) = (new, clamped)) :
    exec (.memoryResponse .ok element) s =
      .next
        (({ s with
            mem := { s.mem with outstanding := rest }
            atomic := some { a with phase := .writeOwed (BitVec.ofNat 32 element.toNat) new clamped } } : State).setPort
          a.port (clampNoted (clamped = some true) (s.port a.port))) := by
  have hh : handResponse b .ok element (withoutBeat s rest) = atomicReadMatched element (withoutBeat s rest) := by
    unfold handResponse
    rw [hk]
  rw [exec_memoryResponse, takeResponse_of_outstanding hr ho, hh, atomicReadMatched_eq element (withoutBeat s rest) a ha,
    setWidth_elem, h, grantMaint_of_atomic rfl, modPort_eq]
  unfold clampNoted
  simp only [decide_eq_true_eq]
  rfl

/-- What a failed atomic read leaves of an entry (R111), `first` saying that its MEMERR is the entry's first. -/
def entryAfterFault (b : BeatRecord) (first : Bool) (e : Entry) : Option Entry :=
  if e.id ≠ b.entry then some e
  else if e.marked then none
  else some { e with state := .ready .memerr, firstBad := if first then some b.index else e.firstBad }

theorem filterMap_entryAfterFault (b : BeatRecord) (first : Bool) (q : List Entry) :
    ((changed b.entry (withFirstBad first b.index) q).filterMap fun e =>
        if e.id ≠ b.entry then some e else if e.marked then none else some { e with state := .ready .memerr }) =
      q.filterMap (entryAfterFault b first) := by
  unfold changed
  rw [List.filterMap_map]
  apply List.filterMap_congr
  intro e _
  by_cases h : e.id = b.entry <;> simp [entryAfterFault, withFirstBad, h]

/-- The port of a failed atomic read before the LINK DROPs behind its entry take effect (R111). -/
def faultNoted (b : BeatRecord) (s : State) : State :=
  ((noteMemerr b s).setAtomic none).modPort b.port fun x =>
    { x with
      queue := x.queue.filterMap fun e =>
        if e.id ≠ b.entry then some e else if e.marked then none else some { e with state := .ready .memerr } }

theorem setAtomic_setPort (s : State) (p : Port) (x : PortRec) (a : Option AtomicRecord) :
    (s.setPort p x).setAtomic a = (s.setAtomic a).setPort p x := rfl

theorem faultNoted_eq (b : BeatRecord) (s : State) :
    faultNoted b s =
      ({ s with
          atomic := none
          notices :=
            if firstMemerr s b then
              s.notices.raise s.settings.noticeMask (.memFault b.port b.addr) s.sched.frameNumber
            else s.notices } : State).setPort b.port
        { s.port b.port with queue := (s.port b.port).queue.filterMap (entryAfterFault b (firstMemerr s b)) } := by
  have hn : noteMemerr b s = noteStatus b true s := rfl
  unfold faultNoted
  rw [hn, noteStatus_eq, modPort_eq]
  unfold firstBadHere
  rw [Bool.true_and, ← filterMap_entryAfterFault, setAtomic_port, port_setPort_self]
  rw [setAtomic_setPort, setPort_setPort]
  rfl

theorem atomicReadFailed_eq (b : BeatRecord) (s : State) :
    atomicReadFailed b s = (takeDrops b.port (faultNoted b s)).modPort b.port clearIdleWatch := rfl

/-- A failed atomic read leaves the gate as the statements write it (R93, R111). -/
theorem atomicReadFailed_spec (s : State) (b : BeatRecord) (rest : List BeatRecord) :
    atomicReadFailed b (withoutBeat s rest) = readFailed s b rest := by
  have hfirst : firstMemerr (withoutBeat s rest) b =
      ((s.port b.port).queue.find? fun e => e.id == b.entry).any fun e => e.firstBad.isNone :=
    firstMemerr_eq (withoutBeat s rest) b
  have hfun : (fun e : Entry =>
      if e.id ≠ b.entry then some e
      else if e.marked then none
      else some { e with
        state := .ready .memerr
        firstBad := if firstMemerr (withoutBeat s rest) b then some b.index else e.firstBad }) =
      entryAfterFault b (firstMemerr (withoutBeat s rest) b) := rfl
  rw [atomicReadFailed_eq]
  unfold readFailed
  dsimp only
  rw [← hfirst, hfun]
  refine state_ext_ports (fun r => ?_) ?_
  · by_cases hr : r = b.port
    · subst hr
      rw [port_modPort_self, clearIdleWatch_eq, takeDrops_port, if_pos rfl, faultNoted_eq, port_setPort_self,
        port_setPort_self, recordLoss_eq]
      rfl
    · rw [port_modPort_ne _ _ hr, takeDrops_port, if_neg hr, faultNoted_eq, port_setPort_ne _ _ hr,
        port_setPort_ne _ _ hr]
      rfl
  · rw [modPort_eq, setPort_eq, takeDrops_frame, takeDrops_links, faultNoted_eq, port_setPort_self]
    rfl

/-- Settles O39: OK gives the result of the update, by the sum's place below 0, above the ceiling or between; MEMERR ends
the update. -/
theorem atomicReadIsAnswered : Obligations.AtomicReadIsAnswered := by
  intro s element b rest a hr ho hk ha
  refine ⟨fun v hop => ?_, fun delta ceiling hop => ⟨fun h => ?_, fun h hc => ?_, fun h hc => ?_⟩, ?_⟩
  · exact exec_atomicRead_ok hr ho hk ha (by rw [hop, atomicResult_swap])
  · rw [exec_atomicRead_ok hr ho hk ha (by rw [hop, atomicResult_below h])]
    unfold clampNoted
    simp only [satInc_half]
    rfl
  · rw [exec_atomicRead_ok hr ho hk ha (by rw [hop, atomicResult_above h hc])]
    unfold clampNoted
    simp only [satInc_half]
    rfl
  · exact exec_atomicRead_ok hr ho hk ha (by rw [hop, atomicResult_within h hc])
  · refine ⟨_, exec_memoryResponse .memerr element s, ?_⟩
    have hh : handResponse b .memerr element (withoutBeat s rest) = atomicReadFailed b (withoutBeat s rest) := by
      unfold handResponse
      rw [hk]
    rw [takeResponse_of_outstanding hr ho, hh, atomicReadFailed_spec]
    exact grantMaint_spec _

/-! ### A response with nothing outstanding -/

/-- Settles O40: with the list empty a response is owed or stray, and in reset it is discarded. -/
theorem unmatchedResponsesAreOwedOrStray : Obligations.UnmatchedResponsesAreOwedOrStray := by
  intro s status element
  refine ⟨fun hr => ?_, fun hr ho howed => ?_, fun hr ho howed => ?_⟩ <;> rw [exec_memoryResponse] <;>
    unfold takeResponse
  · rw [if_pos hr]
  · rw [if_neg (by simp [hr]), ho]
    exact congrArg _ (if_pos howed)
  · rw [if_neg (by simp [hr]), ho]
    exact congrArg _ (if_neg (by simp [howed]))

end Sys2Proof.Proofs
end

section
/-! PROOF. What a response can do, listed once; and the laws of the notice queue (R147 to R151). -/

namespace Sys2Proof.Proofs

open Sys2Proof Sys2Proof.Machine Sys2Proof.Safety

/-! ### What a response can do -/

/-- The gate after the read beat of an atomic update was answered OK (R107). -/
def readAnswered (s : State) (rest : List BeatRecord) (a : AtomicRecord) (old new : Word) (clamped : Option Bool) : State :=
  ({ s with
      mem := { s.mem with outstanding := rest }
      atomic := some { a with phase := .writeOwed old new clamped } } : State).setPort a.port
    (clampNoted (clamped = some true) (s.port a.port))

/-- What a response of the memory controller can make of s (R133, R136 to R138). The last case but one, an atomic read
beat with the atomic record empty, is none that a run reaches. -/
inductive ResponseTaken (s : State) : State → Prop
  | discarded : ResponseTaken s s
  | owed (ho : s.mem.outstanding = []) : ResponseTaken s (s.setMem { s.mem with owed := s.mem.owed - 1 })
  | stray (ho : s.mem.outstanding = []) (x : GateCounters) : ResponseTaken s (s.setCounters x)
  | matched (b : BeatRecord) (rest : List BeatRecord) (bad : Bool) (element : Elem)
    (ho : s.mem.outstanding = b :: rest) (hk : b.kind ≠ .atomicRead) :
    ResponseTaken s (grantMaint (matched s b rest bad element))
  | answered (b : BeatRecord) (rest : List BeatRecord) (a : AtomicRecord) (old new : Word) (clamped : Option Bool)
    (ho : s.mem.outstanding = b :: rest) (hk : b.kind = .atomicRead) (ha : s.atomic = some a) :
    ResponseTaken s (readAnswered s rest a old new clamped)
  | unclaimed (b : BeatRecord) (rest : List BeatRecord) (ho : s.mem.outstanding = b :: rest)
    (hk : b.kind = .atomicRead) (ha : s.atomic = none) : ResponseTaken s (grantMaint (withoutBeat s rest))
  | failed (b : BeatRecord) (rest : List BeatRecord) (ho : s.mem.outstanding = b :: rest) (hk : b.kind = .atomicRead) :
    ResponseTaken s (grantMaint (readFailed s b rest))

theorem handResponse_atomicRead_ok {b : BeatRecord} (hk : b.kind = .atomicRead) (element : Elem) (s : State) :
    handResponse b .ok element s = atomicReadMatched element s := by
  unfold handResponse
  rw [hk]

theorem handResponse_atomicRead_memerr {b : BeatRecord} (hk : b.kind = .atomicRead) (element : Elem) (s : State) :
    handResponse b .memerr element s = atomicReadFailed b s := by
  unfold handResponse
  rw [hk]

theorem atomicReadMatched_of_none {s : State} (ha : s.atomic = none) (element : Elem) :
    atomicReadMatched element s = s := by
  unfold atomicReadMatched
  rw [ha]

theorem takeResponse_taken (status : MemStatus) (element : Elem) (s : State) :
    ResponseTaken s (takeResponse status element s) := by
  rcases takeResponse_cases status element s with ⟨_, h⟩ | ⟨hr, ⟨b, rest, ho, h⟩ | ⟨ho, _, h⟩ | ⟨ho, _, h⟩⟩
  · rw [h]
    exact .discarded
  · by_cases hk : b.kind = .atomicRead
    · cases status with
      | ok =>
        cases ha : s.atomic with
        | none =>
          rw [h, handResponse_atomicRead_ok hk, atomicReadMatched_of_none (s := withoutBeat s rest) ha]
          exact .unclaimed b rest ho hk ha
        | some a =>
          have he := exec_atomicRead_ok (element := element) hr ho hk ha (Prod.mk.eta (p := atomicResult a.op _)).symm
          rw [exec_memoryResponse] at he
          rw [Host.Outcome.next.inj he]
          exact .answered b rest a _ _ _ ho hk ha
      | memerr =>
        rw [h, handResponse_atomicRead_memerr hk, atomicReadFailed_spec]
        exact .failed b rest ho hk
    · rw [h, handResponse_matched rest hk]
      exact .matched b rest _ element ho hk
  · rw [h]
    exact .owed ho
  · rw [h]
    exact .stray ho _

/-! ### The laws of the notice queue, of the queue alone -/

/-- The laws of a notice queue under a mask. -/
abbrev NoticesOk (mask : Byte) (q : NoticeQueue) : Prop :=
  q.records.length ≤ 8 ∧ (∀ r ∈ q.records, 1 ≤ r.repeats ∧ r.repeats ≤ 255) ∧
    q.records.Pairwise (fun a b => a.notice.coalesces = true → a.notice ≠ b.notice) ∧
    q.line = noticeLine mask q.records

theorem noticeInv_iff (s : State) : NoticeInv s ↔ NoticesOk s.settings.noticeMask s.notices := Iff.rfl

theorem bumpRepeat_repeats_bounds {n : Notice} {r : NoticeRecord} (h : 1 ≤ r.repeats ∧ r.repeats ≤ 255) :
    1 ≤ (bumpRepeat n r).repeats ∧ (bumpRepeat n r).repeats ≤ 255 := by
  unfold bumpRepeat
  split
  · dsimp only
    omega
  · exact h

/-- A raise keeps the laws, whichever of merge, append and drop it is (R148, R149, R151). -/
theorem noticesOk_raise {mask : Byte} {q : NoticeQueue} (h : NoticesOk mask q) (n : Notice) (frame : Half) :
    NoticesOk mask (q.raise mask n frame) := by
  obtain ⟨hlen, hrep, hpair, hline⟩ := h
  rcases raise_cases q mask n frame with ⟨_, hq⟩ | ⟨hm, hroom, hq⟩ | ⟨_, _, hq⟩
  · rw [hq]
    refine ⟨by simpa using hlen, fun r hr => ?_, ?_, hline.trans (noticeLine_bump mask n _).symm⟩
    · obtain ⟨r', hr', rfl⟩ := List.mem_map.1 hr
      exact bumpRepeat_repeats_bounds (hrep r' hr')
    · rw [List.pairwise_map]
      simpa using hpair
  · rw [hq]
    refine ⟨by simp; omega, fun r hr => ?_, ?_, rfl⟩
    · rcases List.mem_append.1 hr with hr | hr
      · exact hrep r hr
      · rw [List.mem_singleton.1 hr]
        exact ⟨le_refl _, (by decide : (1 : Nat) ≤ 255)⟩
    · refine List.pairwise_append.2 ⟨hpair, List.pairwise_singleton _ _, fun a ha b hb hc heq => ?_⟩
      rw [List.mem_singleton.1 hb] at heq
      change a.notice = n at heq
      have hmerge : mergeable q n = true := by
        unfold mergeable
        rw [Bool.and_eq_true, List.any_eq_true]
        exact ⟨heq ▸ hc, a, ha, decide_eq_true heq⟩
      rw [hmerge] at hm
      cases hm
  · rw [hq]
    exact ⟨hlen, hrep, hpair, hline⟩

/-- The queue without its oldest record, with the line recomputed, keeps the laws (R154). -/
theorem noticesOk_take {mask : Byte} {q : NoticeQueue} (h : NoticesOk mask q) : NoticesOk mask (q.take mask) := by
  obtain ⟨hlen, hrep, hpair, _⟩ := h
  refine ⟨?_, fun r hr => hrep r (List.mem_of_mem_tail hr), hpair.sublist (List.tail_sublist _), rfl⟩
  change q.records.tail.length ≤ 8
  rw [List.length_tail]
  omega

/-! ### Happenings that raise notices and leave the mask -/

/-- Between s and t notices were raised, one after another, under the mask of s, which t has. -/
def OnlyRaises (s t : State) : Prop :=
  t.settings.noticeMask = s.settings.noticeMask ∧
    ∃ frame l, t.notices = afterRaises s.settings.noticeMask frame s.notices l

theorem onlyRaises_of_eq {s t : State} (hm : t.settings = s.settings) (hn : t.notices = s.notices) : OnlyRaises s t :=
  ⟨by rw [hm], 0, [], hn⟩

theorem onlyRaises_of_raise {s t : State} (hm : t.settings = s.settings) {n : Notice} {frame : Half}
    (hn : t.notices = s.notices.raise s.settings.noticeMask n frame) : OnlyRaises s t :=
  ⟨by rw [hm], frame, [n], hn⟩

/-- Notices that are raised under a condition. -/
theorem onlyRaises_of_ite {s t : State} {c : Prop} [Decidable c] (hm : t.settings = s.settings) {n : Notice}
    {frame : Half} (hn : t.notices = if c then s.notices.raise s.settings.noticeMask n frame else s.notices) :
    OnlyRaises s t := by
  split at hn
  · exact onlyRaises_of_raise hm hn
  · exact onlyRaises_of_eq hm hn

theorem onlyRaises_of_raisedAtFrameStart {s t : State} (hm : t.settings = s.settings) (h : RaisedAtFrameStart s t) :
    OnlyRaises s t := by
  obtain ⟨order, _, hn⟩ := h
  exact ⟨by rw [hm], _, _, hn⟩

theorem onlyRaises_of_frameStarted {s t : State} (h : FrameStarted s t) : OnlyRaises s t := by
  dsimp only [FrameStarted] at h
  obtain ⟨_, _, _, _, _, hn, ht⟩ := h
  have hm : t.settings = s.settings := by rw [ht]
  exact onlyRaises_of_raisedAtFrameStart hm hn

/-- The mark taken ahead of a beat time raises what a frame start raises; the beat time and the slot raise nothing. -/
theorem onlyRaises_of_markTaken {s u v t : State} {i : Fin 32} (hu : MarkTaken s u) (ht : SlotStarted v t i)
    (hm : v.settings = u.settings) (hn : v.notices = u.notices) : OnlyRaises s t := by
  dsimp only [SlotStarted] at ht
  dsimp only [MarkTaken] at hu
  obtain ⟨_, _, ht⟩ := ht
  obtain ⟨_, _, hr, hu⟩ := hu
  have hus : u.settings = s.settings := by rw [hu]
  obtain ⟨hmask, frame, l, hnotices⟩ := onlyRaises_of_raisedAtFrameStart hus hr
  have hts : t.settings = v.settings := by rw [ht]
  have htn : t.notices = v.notices := by rw [ht]
  exact ⟨by rw [hts, hm, hus], frame, l, by rw [htn, hn, hnotices]⟩

theorem onlyRaises_endSlot (s : State) : OnlyRaises s (endSlot s) := by
  rcases endSlot_cases s with ⟨_, h⟩ | ⟨_, _, h⟩ | ⟨_, _, _, h⟩ | ⟨_, _, _, h⟩
  · have hn : (endSlot s).notices = if (s.sched.commit == .pending) = true then
        s.notices.raise s.settings.noticeMask .tableSwapped s.sched.frameNumber else s.notices := by
      rw [h]
      rfl
    exact onlyRaises_of_ite (endSlot_settings s) hn
  · dsimp only [SlotStarted] at h
    have hn : (endSlot s).notices = s.notices := by
      rw [h.2.2]
      rfl
    exact onlyRaises_of_eq (endSlot_settings s) hn
  · have hr := onlyRaises_of_frameStarted h
    exact hr
  · have hn : (endSlot s).notices = s.notices := by
      rw [h]
      rfl
    exact onlyRaises_of_eq (endSlot_settings s) hn

theorem onlyRaises_takeResponse (status : MemStatus) (element : Elem) (s : State) :
    OnlyRaises s (takeResponse status element s) := by
  have ht := takeResponse_taken status element s
  generalize takeResponse status element s = t at ht ⊢
  cases ht with
  | discarded | owed _ | stray _ _ | answered _ _ _ _ _ _ _ _ _ => exact onlyRaises_of_eq rfl rfl
  | unclaimed _ _ _ _ _ => exact onlyRaises_of_eq (by simp) (by simp)
  | matched _ _ _ _ _ _ => exact onlyRaises_of_ite (by rw [grantMaint_settings]; rfl) (by rw [grantMaint_notices]; rfl)
  | failed _ _ _ _ => exact onlyRaises_of_ite (by rw [grantMaint_settings]; rfl) (by rw [grantMaint_notices]; rfl)

theorem takeWedge_notices (s : State) : (takeWedge s).notices =
    s.notices.raise s.settings.noticeMask (.wedged s.mem.outstanding.length) s.sched.frameNumber := by
  obtain ⟨_, h⟩ := takeWedge_spec s
  dsimp only [WindowAfter] at h
  rw [h]

theorem onlyRaises_endReset (p : Port) (s : State) : OnlyRaises s (endReset p s) := by
  rcases endReset_cases p s with ⟨_, _, h⟩ | ⟨_, h⟩
  · have hn : (endReset p s).notices =
        s.notices.raise s.settings.noticeMask (.portReady p) s.sched.frameNumber := by
      rw [h]
      rfl
    exact onlyRaises_of_raise (endReset_settings p s) hn
  · rw [h]
    exact onlyRaises_of_eq rfl rfl

theorem onlyRaises_enterStopped (s : State) : OnlyRaises s (enterStopped s) := by
  have hn : (enterStopped s).notices = if (s.sched.commit == .pending) = true then
      s.notices.raise s.settings.noticeMask .tableSwapped s.sched.frameNumber else s.notices := by
    rw [enterStopped_spec s]
  exact onlyRaises_of_ite (enterStopped_settings s) hn

theorem noticeInv_of_onlyRaises {s t : State} (h : OnlyRaises s t) (hs : NoticeInv s) : NoticeInv t := by
  obtain ⟨hm, frame, l, hn⟩ := h
  rw [noticeInv_iff, hm, hn]
  exact afterRaises_induct (P := NoticesOk s.settings.noticeMask) l hs fun q n hq => noticesOk_raise hq n frame

/-! ### Settings -/

theorem noticeInv_settingWritten (number : Nat) (value : Half) {s : State} (hs : NoticeInv s) :
    NoticeInv (settingWritten number value s) := by
  have hmask : number ≠ 9 → (storeSetting s.settings number value.toNat).noticeMask = s.settings.noticeMask := fun h => by
    rw [storeSetting_noticeMask, if_neg h]
  have hstored : number ≠ 9 → NoticeInv (settingStored number value s) := fun h => by
    rw [noticeInv_iff]
    change NoticesOk (storeSetting s.settings number value.toNat).noticeMask s.notices
    rw [hmask h]
    exact hs
  rcases settingWritten_cases number value s with ⟨h0, _, _, h⟩ | ⟨h0, _, h⟩ | ⟨h0, _, h⟩ | ⟨h0, _, h⟩ | ⟨h0, h⟩ |
    ⟨_, _, _, h9, h⟩
  · rw [h]
    exact noticeInv_of_onlyRaises (onlyRaises_of_frameStarted (frameStart_spec _)) (hstored (by simp [h0]))
  · rw [h]
    exact hstored (by simp [h0])
  · rw [h]
    exact hstored (by simp [h0])
  · rw [h]
    exact hstored (by simp [h0])
  · subst h0
    obtain ⟨hlen, hrep, hpair, _⟩ := hs
    rw [h]
    exact ⟨hlen, hrep, hpair, rfl⟩
  · rw [h]
    exact hstored h9

/-! ### Every happening -/

theorem noticeInv_act {s t : State} (h : Act s t) (hs : NoticeInv s) : NoticeInv t := by
  cases h with
  | framed _ | counted _ | line _ _ | presented _ _ | recovery _ | maintReq _ | enable _
  | purgePort _ | purgeAll | shadow _ _ _ | swap _ _ | commit _ | cancel | drain _ _
  | enterGap _ _ _ => exact hs
  | raised n => exact noticesOk_raise hs n _
  | firstFrame _ => exact noticeInv_of_onlyRaises (onlyRaises_of_frameStarted (frameStart_spec _)) hs
  | frameStart _ _ => exact noticeInv_of_onlyRaises (onlyRaises_of_frameStarted (frameStart_spec s)) hs
  | gapMarkFirst _ =>
    obtain ⟨u, hu, ht⟩ := gapMarkFirst_spec s
    exact noticeInv_of_onlyRaises (onlyRaises_of_markTaken hu ht (beatTime_settings u) (beatTime_notices u)) hs
  | markFirst _ =>
    obtain ⟨u, hu, ht⟩ := markFirst_spec s
    exact noticeInv_of_onlyRaises (onlyRaises_of_markTaken hu ht (beatTime_settings u) (beatTime_notices u)) hs
  | slotEnd _ => exact noticeInv_of_onlyRaises (onlyRaises_endSlot s) hs
  | response status element => exact noticeInv_of_onlyRaises (onlyRaises_takeResponse status element s) hs
  | wedge _ => exact noticeInv_of_onlyRaises (onlyRaises_of_raise (takeWedge_settings s) (takeWedge_notices s)) hs
  | portResetEnd p => exact noticeInv_of_onlyRaises (onlyRaises_endReset p s) hs
  | enterStopped _ _ => exact noticeInv_of_onlyRaises (onlyRaises_enterStopped s) hs
  | noticeTaken => exact noticesOk_take hs
  | cleared => exact noticeInv_reset
  | setting number value _ _ => exact noticeInv_settingWritten number value hs
  | disable p =>
    rw [disablePort_frame]
    exact hs
  | _ => simpa [NoticeInv] using hs

/-- Settles O10: the laws are of the queue and the mask alone; a raise keeps them, and every happening raises, takes the
oldest record, clears the queue or writes the mask with the line recomputed. -/
theorem noticeLawsKeptByEveryStep : Obligations.NoticeLawsKeptByEveryStep := fun _ _ hs h =>
  step_keeps (P := NoticeInv) (fun _ _ ha => noticeInv_act ha) (fun _ _ => noticeInv_reset) (fun _ _ h => h) hs h

end Sys2Proof.Proofs
end

section
/-! PROOF. The laws of the tables, the settings and the scheduler (R3, R5, R24, R26, R40, R46, R170). -/

namespace Sys2Proof.Proofs

open Sys2Proof Sys2Proof.Machine Sys2Proof.Safety

/-! ### Budget and timer in a beat time -/

/-- A beat time moves budget and timer alone of the scheduler (R26, R48). -/
theorem beatTime_sched (s : State) :
    (beatTime s).sched =
      { s.sched with
        budget := if s.sched.record.isSome then s.sched.budget - 1 else s.sched.budget
        timer := if s.sched.record = none ∧ s.sched.state = .gap then s.sched.timer.map (· - 1) else s.sched.timer } := by
  have hd : (decideIssue (atDecision s)).1.sched = s.sched := decideIssue_sched _
  rw [beatTime_eq, (endBeat_spec _ _).2, hd]

theorem beatTime_timer_isSome (s : State) : (beatTime s).sched.timer.isSome = s.sched.timer.isSome := by
  rw [beatTime_sched]
  dsimp only
  split
  · rw [Option.isSome_map]
  · rfl

/-! ### The scheduler's laws when a slot runs, and when none does -/

theorem frameInv_congr {s t : State} (hr : t.resetAsserted = s.resetAsserted) (ha : t.active = s.active)
    (hsh : t.shadow = s.shadow) (hset : t.settings = s.settings) (hsch : t.sched = s.sched) (hs : FrameInv s) :
    FrameInv t := by
  unfold FrameInv SchedOk
  rw [hr, ha, hsh, hset, hsch]
  exact hs

/-- A slot in progress under the active table. -/
theorem schedOk_of_slot {t : State} (hr : t.resetAsserted = false)
    (hst : t.sched.state = .running ∨ t.sched.state = .draining)
    (hrec : t.sched.record = some (t.active.slots.get t.sched.slot)) (hslot : t.sched.slot.val < t.active.frameLen)
    (hb : t.sched.budget ≤ (t.active.slots.get t.sched.slot).length)
    (hq : (t.active.slots.get t.sched.slot).isQuiet = true → t.sched.grantee = none) (htimer : t.sched.timer = none) :
    SchedOk t := by
  have hgap : t.sched.state ≠ .gap := by rcases hst with h | h <;> simp [h]
  have hstop : t.sched.state ≠ .stopped := by rcases hst with h | h <;> simp [h]
  exact ⟨fun h => by simp [hr] at h, fun h => absurd h (by simp [hgap, hstop]), fun _ _ => ⟨hrec, hslot, hb, hq⟩,
    by simp [htimer, hgap], fun h => absurd h hgap, fun h => absurd h hstop⟩

/-- GAP under EXTERNAL (R46, R50). -/
theorem schedOk_of_gap {t : State} (hr : t.resetAsserted = false) (hst : t.sched.state = .gap) (hno : NoSlot t.sched)
    (htimer : t.sched.timer.isSome = true) (hm : t.sched.syncInForce = .external) : SchedOk t :=
  ⟨fun h => by simp [hr] at h, fun _ => hno, fun _ h => by simp [hst] at h, by simp [htimer, hst], fun _ => hm,
    fun h => by simp [hst] at h⟩

/-- STOPPED (R46, R51). -/
theorem schedOk_of_stopped {t : State} (hr : t.resetAsserted = false) (hst : t.sched.state = .stopped)
    (hno : NoSlot t.sched) (htimer : t.sched.timer = none) (hm : t.sched.syncInForce = t.settings.syncMode)
    (hc : t.sched.commit = .none) : SchedOk t :=
  ⟨fun h => by simp [hr] at h, fun _ => hno, fun _ h => by simp [hst] at h, by simp [htimer, hst],
    fun h => by simp [hst] at h, fun _ => ⟨hm, hc⟩⟩

/-- A QUIET slot is granted to no port (R24). -/
theorem granted_quiet {s : State} {r : SlotRecord} {g : Option Port} {next : Port} (h : Granted s r g next)
    (hq : r.isQuiet = true) : g = none := by
  cases r with
  | owned _ _ _ => cases hq
  | pool _ => cases hq
  | quiet n =>
    unfold Granted at h
    split at h
    · exact h.1
    · exact h.1

/-- In a slot the scheduler is RUNNING or DRAINING (R40). -/
theorem inFrame_of_record {s : State} (h : SchedOk s) (hrec : s.sched.record.isSome = true) :
    s.sched.state = .running ∨ s.sched.state = .draining := by
  obtain ⟨_, hno, _⟩ := h
  cases hs : s.sched.state with
  | running => exact .inl rfl
  | draining => exact .inr rfl
  | stopped => simp [(hno (.inl hs)).1] at hrec
  | gap => simp [(hno (.inr hs)).1] at hrec

/-! ### Slots and frames -/

/-- A slot started in RUNNING with the timer stopped. -/
theorem frameInv_of_slotStarted {v t : State} {i : Fin 32} (h : SlotStarted v t i) (hr : v.resetAsserted = false)
    (hst : v.sched.state = .running) (htimer : v.sched.timer = none) (hi : i.val < v.active.frameLen)
    (ha : TableOk v.active) (hsh : TableOk v.shadow) (hset : SettingsOk v.settings) : FrameInv t := by
  dsimp only [SlotStarted] at h
  obtain ⟨hg, _, ht⟩ := h
  have hactive : t.active = v.active := by rw [ht]
  have hshadow : t.shadow = v.shadow := by rw [ht]
  have hsettings : t.settings = v.settings := by rw [ht]
  have hsched : t.sched = { v.sched with
      slot := i, budget := (v.active.slots.get i).length, record := some (v.active.slots.get i),
      grantee := t.sched.grantee, poolNext := t.sched.poolNext } := by rw [ht]
  refine ⟨hactive ▸ ha, hshadow ▸ hsh, hsettings ▸ hset, schedOk_of_slot ?_ (.inl ?_) ?_ ?_ ?_ ?_ ?_⟩
  · rw [ht]
    exact hr
  all_goals rw [hsched]
  · exact hst
  · rw [hactive]
  · rw [hactive]
    exact hi
  · rw [hactive]
  · rw [hactive]
    exact granted_quiet hg
  · exact htimer

/-- A frame start needs the tables and the settings in their ranges, and of the scheduler nothing. -/
theorem frameInv_of_frameStarted {s t : State} (h : FrameStarted s t) (hr : s.resetAsserted = false)
    (ha : TableOk s.active) (hsh : TableOk s.shadow) (hset : SettingsOk s.settings) : FrameInv t := by
  dsimp only [FrameStarted] at h
  obtain ⟨hactive, hg, _, _, _, _, ht⟩ := h
  have htable : TableOk t.active := by
    rw [hactive]
    split
    · exact hsh
    · exact ha
  have hshadow : t.shadow = s.shadow := by rw [ht]
  have hsettings : t.settings = s.settings := by rw [ht]
  have hsched : t.sched = { s.sched with
      state := .running, slot := 0, budget := (t.active.slots.get 0).length, record := some (t.active.slots.get 0),
      grantee := t.sched.grantee, frameNumber := s.sched.frameNumber + 1, commit := .none, timer := none,
      poolNext := t.sched.poolNext } := by rw [ht]
  refine ⟨htable, hshadow ▸ hsh, hsettings ▸ hset, schedOk_of_slot ?_ (.inl ?_) ?_ ?_ ?_ ?_ ?_⟩
  · rw [ht]
    exact hr
  all_goals rw [hsched]
  · exact htable.2.1
  · exact granted_quiet hg

/-- A frame mark taken ahead of a beat time leaves tables and settings in their ranges (R42). -/
theorem tables_of_markTaken {s u : State} (h : MarkTaken s u) (hs : FrameInv s) :
    TableOk (beatTime u).active ∧ TableOk (beatTime u).shadow ∧ SettingsOk (beatTime u).settings ∧
      (beatTime u).resetAsserted = s.resetAsserted := by
  dsimp only [MarkTaken] at h
  obtain ⟨_, _, _, hu⟩ := h
  obtain ⟨ha, hsh, hset, _⟩ := hs
  have hactive : u.active = if s.sched.commit = .pending then s.shadow else s.active := by rw [hu]
  have hshadow : u.shadow = s.shadow := by rw [hu]
  have hsettings : u.settings = s.settings := by rw [hu]
  have hreset : u.resetAsserted = s.resetAsserted := by rw [hu]
  rw [beatTime_active, beatTime_shadow, beatTime_settings, beatTime_resetAsserted, hshadow, hsettings, hreset, hactive]
  refine ⟨?_, hsh, hset, rfl⟩
  split
  · exact hsh
  · exact ha

theorem not_reset_of_beatCanPass {s : State} (h : beatCanPass s = true) : s.resetAsserted = false := by
  unfold beatCanPass at h
  simp only [Bool.and_eq_true, Bool.not_eq_true'] at h
  exact h.1.1.1

theorem slotEndDue_iff (s : State) :
    slotEndDue s = true ↔ s.resetAsserted = false ∧ s.sched.record.isSome = true ∧ s.sched.budget = 0 := by
  unfold slotEndDue
  simp [and_assoc]

theorem markFirstDue_iff (s : State) :
    markFirstDue s = true ↔
      beatCanPass s = true ∧ s.sched.record.isSome = true ∧ s.sched.budget = 1 ∧ s.sched.state = .running ∧
        s.active.frameLen ≤ s.sched.slot.val + 1 ∧ s.settings.syncMode = .internal := by
  unfold markFirstDue
  simp [and_assoc]

theorem frameInv_gapMarkFirst {s : State} (h : gapMarkFirstDue s = true) (hs : FrameInv s) :
    FrameInv (gapMarkFirst s) := by
  obtain ⟨u, hu, ht⟩ := gapMarkFirst_spec s
  obtain ⟨ha, hsh, hset, hr⟩ := tables_of_markTaken hu hs
  have hreset := not_reset_of_beatCanPass ((gapMarkFirstDue_iff s).1 h).1
  exact frameInv_of_slotStarted ht (hr.trans hreset) rfl rfl ha.2.1 ha hsh hset

theorem frameInv_markFirst {s : State} (h : markFirstDue s = true) (hs : FrameInv s) : FrameInv (markFirst s) := by
  obtain ⟨u, hu, ht⟩ := markFirst_spec s
  obtain ⟨ha, hsh, hset, hr⟩ := tables_of_markTaken hu hs
  have hreset := not_reset_of_beatCanPass ((markFirstDue_iff s).1 h).1
  exact frameInv_of_slotStarted ht (hr.trans hreset) rfl rfl ha.2.1 ha hsh hset

theorem frameInv_of_inGap {s t : State} (h : InGap s t .external) (hr : s.resetAsserted = false) (ha : TableOk s.active)
    (hsh : TableOk s.shadow) (hset : SettingsOk s.settings) : FrameInv t := by
  rw [h]
  exact ⟨ha, hsh, hset, schedOk_of_gap hr rfl ⟨rfl, rfl, rfl, rfl⟩ rfl rfl⟩

theorem frameInv_of_stopped {s t : State} (h : Stopped s t) (hr : s.resetAsserted = false) (ha : TableOk s.active)
    (hsh : TableOk s.shadow) (hset : SettingsOk s.settings) : FrameInv t := by
  dsimp only [Stopped] at h
  have hactive : TableOk t.active := by
    rw [h]
    dsimp only
    split
    · exact hsh
    · exact ha
  refine ⟨hactive, ?_⟩
  rw [h]
  exact ⟨hsh, hset, schedOk_of_stopped hr rfl ⟨rfl, rfl, rfl, rfl⟩ rfl rfl rfl⟩

/-- The slot that follows has the next index: it is in use, so it is below 32 (R3, R44). -/
theorem next_slot_val {i : Fin 32} {n : Nat} (h : i.val + 1 < n) (hn : n ≤ 32) : (i + 1).val = i.val + 1 := by
  rw [Fin.val_add]
  exact Nat.mod_eq_of_lt (by simpa using lt_of_lt_of_le h hn)

theorem frameInv_endSlot {s : State} (h : slotEndDue s = true) (hs : FrameInv s) : FrameInv (endSlot s) := by
  obtain ⟨hr, hrec, _⟩ := (slotEndDue_iff s).1 h
  obtain ⟨ha, hsh, hset, hsched⟩ := hs
  have hin := inFrame_of_record hsched hrec
  obtain ⟨_, _, _, htimer, _⟩ := hsched
  rcases endSlot_cases s with ⟨_, he⟩ | ⟨hd, hlt, he⟩ | ⟨_, _, _, he⟩ | ⟨_, _, _, he⟩
  · exact frameInv_of_stopped he hr ha hsh hset
  · have hrun := hin.resolve_right hd
    have hnone : s.sched.timer = none := by simpa [hrun] using htimer
    have hi : (s.sched.slot + 1).val < s.active.frameLen := (next_slot_val hlt ha.2.2).symm ▸ hlt
    exact frameInv_of_slotStarted he hr hrun hnone hi ha hsh hset
  · exact frameInv_of_frameStarted he hr ha hsh hset
  · exact frameInv_of_inGap he hr ha hsh hset

/-! ### A beat time, DRAINING, and a write of a setting -/

theorem frameInv_beatTime {s : State} (hs : FrameInv s) : FrameInv (beatTime s) := by
  obtain ⟨ha, hsh, hset, hreset, hno, hslot, htimer, hgap, hstop⟩ := hs
  have htimer' := beatTime_timer_isSome s
  refine ⟨by rwa [beatTime_active], by rwa [beatTime_shadow], by rwa [beatTime_settings], ?_⟩
  unfold SchedOk
  rw [htimer', beatTime_resetAsserted, beatTime_active, beatTime_settings, beatTime_sched]
  have hnoSlot : NoSlot s.sched → ∀ timer, NoSlot { s.sched with
      budget := if s.sched.record.isSome then s.sched.budget - 1 else s.sched.budget, timer := timer } := by
    rintro ⟨h1, h2, h3, h4⟩ timer
    exact ⟨h1, h2, by simp [h1, h3], h4⟩
  refine ⟨fun h => ⟨(hreset h).1, hnoSlot (hreset h).2 _⟩, fun h => hnoSlot (hno h) _, fun h1 h2 => ?_, htimer, hgap,
    hstop⟩
  obtain ⟨hrec, hlt, hb, hq⟩ := hslot h1 h2
  refine ⟨hrec, hlt, ?_, hq⟩
  dsimp only
  split <;> omega

theorem frameInv_drain {s : State} (hr : s.resetAsserted = false) (h : s.sched.state = .running) (hs : FrameInv s) :
    FrameInv (s.setSched { s.sched with state := .draining }) := by
  obtain ⟨ha, hsh, hset, _, _, hslot, htimer, _⟩ := hs
  obtain ⟨hrec, hlt, hb, hq⟩ := hslot hr (.inl h)
  have hnone : s.sched.timer = none := by simpa [h] using htimer
  exact ⟨ha, hsh, hset, schedOk_of_slot hr (.inr rfl) hrec hlt hb hq hnone⟩

/-- A value in the range of R170 leaves the settings in their ranges. -/
theorem settingsOk_storeSetting {t : Settings} {number value : Nat} (h : SettingRange number value)
    (ht : SettingsOk t) : SettingsOk (storeSetting t number value) := by
  obtain ⟨hwait, hlimit, hage, hgranule, hsize, htimeout, hwl, hmask⟩ := ht
  rcases h with ⟨rfl, _⟩ | ⟨rfl, h⟩ | ⟨rfl, h⟩ | ⟨rfl, h⟩ | ⟨rfl, h⟩ | ⟨rfl, h⟩ | ⟨rfl, h⟩ | ⟨rfl, h⟩ | ⟨rfl, _⟩ |
    ⟨rfl, _, h⟩
  · exact ⟨hwait, hlimit, hage, hgranule, hsize, htimeout, hwl, hmask⟩
  · exact ⟨h, hlimit, hage, hgranule, hsize, htimeout, hwl, hmask⟩
  · have hl : value = 1 ∨ value = 2 := by omega
    exact ⟨hwait, hl, hage, hgranule, hsize, htimeout, hwl, hmask⟩
  · exact ⟨hwait, hlimit, h, hgranule, hsize, htimeout, hwl, hmask⟩
  · exact ⟨hwait, hlimit, hage, h, hsize, htimeout, hwl, hmask⟩
  · exact ⟨hwait, hlimit, hage, hgranule, h, htimeout, hwl, hmask⟩
  · exact ⟨hwait, hlimit, hage, hgranule, hsize, h, hwl, hmask⟩
  · exact ⟨hwait, hlimit, hage, hgranule, hsize, htimeout, h, hmask⟩
  · exact ⟨hwait, hlimit, hage, hgranule, hsize, htimeout, hwl, hmask⟩
  · have hm : (BitVec.ofNat 8 value).getLsbD 0 = false := by
      rw [getLsbD_div, BitVec.toNat_ofNat, decide_eq_false_iff_not]
      omega
    exact ⟨hwait, hlimit, hage, hgranule, hsize, htimeout, hwl, hm⟩

/-- A stored setting keeps the laws, if it is not SYNC_MODE while STOPPED, where the mode in force is the written one. -/
theorem frameInv_settingStored {number : Nat} {value : Half} {s : State} (hrange : SettingRange number value.toNat)
    (hmode : number = 0 → s.sched.state ≠ .stopped) (hs : FrameInv s) : FrameInv (settingStored number value s) := by
  obtain ⟨ha, hsh, hset, hreset, hno, hslot, htimer, hgap, hstop⟩ := hs
  refine ⟨ha, hsh, settingsOk_storeSetting hrange hset, hreset, hno, hslot, htimer, hgap, fun h => ?_⟩
  obtain ⟨hm, hc⟩ := hstop h
  refine ⟨hm.trans ?_, hc⟩
  change _ = (storeSetting s.settings number value.toNat).syncMode
  rw [storeSetting_syncMode, if_neg fun h0 => hmode h0 h]

theorem frameInv_settingWritten {number : Nat} {value : Half} {s : State} (hr : s.resetAsserted = false)
    (hrange : SettingRange number value.toNat) (hs : FrameInv s) : FrameInv (settingWritten number value s) := by
  rcases settingWritten_cases number value s with ⟨_, _, _, h⟩ | ⟨h0, hst, h⟩ | ⟨h2, _, h⟩ | ⟨h4, _, h⟩ | ⟨h9, h⟩ |
    ⟨hw, _, _, _, h⟩
  · obtain ⟨ha, hsh, hset, _⟩ := hs
    rw [h]
    exact frameInv_of_frameStarted (frameStart_spec _) hr ha hsh (settingsOk_storeSetting hrange hset)
  · obtain ⟨ha, hsh, hset, _, hno, _, htimer, _, hstop⟩ := hs
    have hnone : s.sched.timer = none := by simpa [hst] using htimer
    subst h0
    rw [h]
    exact ⟨ha, hsh, settingsOk_storeSetting hrange hset,
      schedOk_of_stopped hr hst (hno (.inl hst)) hnone rfl (hstop hst).2⟩
  · rw [h]
    exact frameInv_settingStored hrange (by simp [h2]) hs
  · rw [h]
    exact frameInv_settingStored hrange (by simp [h4]) hs
  · rw [h]
    exact frameInv_settingStored hrange (by simp [h9]) hs
  · rw [h]
    exact frameInv_settingStored hrange (fun h0 => (hw h0).1) hs

/-! ### Every happening -/

theorem frameInv_act {s t : State} (h : Act s t) (hs : FrameInv s) : FrameInv t := by
  cases h with
  | framed _ | counted _ | raised _ | line _ _ | presented _ _ | recovery _ | maintReq _ | enable _ | purgePort _
  | purgeAll | noticeTaken | cleared => exact hs
  | firstFrame _ =>
    obtain ⟨ha, hsh, hset, _⟩ := hs
    exact frameInv_of_frameStarted (frameStart_spec _) rfl ha hsh hset
  | frameStart hr _ =>
    obtain ⟨ha, hsh, hset, _⟩ := hs
    exact frameInv_of_frameStarted (frameStart_spec s) hr ha hsh hset
  | gapMarkFirst hd => exact frameInv_gapMarkFirst hd hs
  | slotEnd hd => exact frameInv_endSlot hd hs
  | markFirst hd => exact frameInv_markFirst hd hs
  | beat _ => exact frameInv_beatTime hs
  | setting number value hr hrange => exact frameInv_settingWritten hr hrange hs
  | shadow table _ htable =>
    obtain ⟨ha, hsh, hset, hsched⟩ := hs
    exact ⟨ha, htable ha hsh, hset, hsched⟩
  | swap hst hc =>
    obtain ⟨_, hsh, hset, hreset, hno, _, htimer, hgap, hstop⟩ := hs
    exact ⟨hsh, hsh, hset, hreset, hno, fun _ h => by simp [swapTables, hst] at h, htimer, hgap,
      fun h => ⟨(hstop h).1, rfl⟩⟩
  | commit hst =>
    obtain ⟨ha, hsh, hset, hreset, hno, hslot, htimer, hgap, _⟩ := hs
    exact ⟨ha, hsh, hset, hreset, hno, hslot, htimer, hgap, fun h => absurd h hst⟩
  | cancel =>
    obtain ⟨ha, hsh, hset, hreset, hno, hslot, htimer, hgap, hstop⟩ := hs
    exact ⟨ha, hsh, hset, hreset, hno, hslot, htimer, hgap, fun h => ⟨(hstop h).1, rfl⟩⟩
  | enterGap hr _ hm =>
    obtain ⟨ha, hsh, hset, _⟩ := hs
    have hin := enterGap_spec s
    rw [hm] at hin
    exact frameInv_of_inGap hin hr ha hsh hset
  | drain hr hst => exact frameInv_drain hr hst hs
  | enterStopped hr _ =>
    obtain ⟨ha, hsh, hset, _⟩ := hs
    exact frameInv_of_stopped (enterStopped_spec s) hr ha hsh hset
  | disable p =>
    rw [disablePort_frame]
    exact hs
  | _ => exact frameInv_congr (by simp) (by simp) (by simp) (by simp) (by simp) hs

/-- Settles O5: each happening that moves the scheduler starts a slot of the active table, enters GAP or STOPPED, or moves
budget, timer and mode within the laws. -/
theorem frameLawsKeptByEveryStep : Obligations.FrameLawsKeptByEveryStep := fun _ _ hs h =>
  step_keeps (P := FrameInv) (fun _ _ ha => frameInv_act ha) (fun _ _ => frameInv_reset) (fun _ _ h => h) hs h

end Sys2Proof.Proofs
end

section
/-! PROOF. The issue of a beat, whatever its kind; and the heads that issue (R29, R64, R69, R84 to R88, R93, R101, R105,
R107 to R109). -/

namespace Sys2Proof.Proofs

open Sys2Proof Sys2Proof.Machine Sys2Proof.Safety

/-! ### What a write beat makes of the links -/

/-- The loss record of every port after a write beat that closes its own link (R69, R74). -/
theorem closeOwn_closeOthers_port (q : Port) (a : Word) (s : State) (r : Port) :
    (closeOwn q a (closeOthers q a s)).port r =
      recordLoss (if r = q then .selfWrite else .overwritten)
        (s.links.countP fun l => l.base == granuleBase s.settings.granule a && l.holder == r) (s.port r) := by
  unfold closeOwn closeOthers
  rw [closeWhere_port, closeWhere_port]
  unfold linksOf
  rw [closeWhere_links, List.countP_filter]
  by_cases hr : r = q
  · subst hr
    have h0 : (s.links.countP fun l =>
        (l.base == granuleBase s.settings.granule a && l.holder != r) && l.holder == r) = 0 := by
      rw [List.countP_eq_zero]
      intro l _
      simp
    rw [if_pos rfl, h0, recordLoss_zero]
    congr 1
    apply List.countP_congr
    intro l _
    simp only [closeWhere_settings, Bool.and_eq_true, beq_iff_eq, Bool.not_eq_true', Bool.and_eq_false_iff,
      bne_eq_false_iff_eq]
    tauto
  · have h0 : (s.links.countP fun l =>
        ((l.base == granuleBase s.settings.granule a && l.holder == q) && l.holder == r) &&
          !(l.base == granuleBase s.settings.granule a && l.holder != q)) = 0 := by
      rw [List.countP_eq_zero]
      intro l _
      simp only [Bool.and_eq_true, beq_iff_eq, not_and]
      rintro ⟨⟨_, rfl⟩, rfl⟩
      exact absurd rfl hr
    rw [if_neg hr]
    simp only [closeWhere_settings]
    rw [h0, recordLoss_zero]
    congr 1
    apply List.countP_congr
    intro l _
    simp only [Bool.and_eq_true, beq_iff_eq, bne_iff_ne]
    constructor
    · rintro ⟨⟨hb, _⟩, hh⟩
      exact ⟨hb, hh⟩
    · rintro ⟨hb, hh⟩
      exact ⟨⟨hb, hh ▸ hr⟩, hh⟩

/-- No link of the port stands on the granule of the address. -/
def NoOwnLink (q : Port) (a : Word) (s : State) : Prop :=
  ∀ l ∈ s.links, l.holder = q → l.base ≠ granuleBase s.settings.granule a

/-- Without an own link on it a CONDITIONAL WRITE beat leaves no link on its granule either (R86). -/
theorem closeOthers_links_of_noOwnLink {q : Port} {a : Word} {s : State} (h : NoOwnLink q a s) :
    (closeOthers q a s).links = withoutBase (granuleBase s.settings.granule a) s.links := by
  unfold closeOthers withoutBase
  rw [closeWhere_links]
  apply List.filter_congr
  intro l hl
  by_cases hb : l.base = granuleBase s.settings.granule a
  · have hq : l.holder ≠ q := fun he => h l hl he hb
    simp [hb, hq]
  · simp [hb]

theorem closeOthers_port_of_noOwnLink {q : Port} {a : Word} {s : State} (h : NoOwnLink q a s) (r : Port) :
    (closeOthers q a s).port r =
      recordLoss (if r = q then .selfWrite else .overwritten)
        (s.links.countP fun l => l.base == granuleBase s.settings.granule a && l.holder == r) (s.port r) := by
  unfold closeOthers
  rw [closeWhere_port]
  unfold linksOf
  by_cases hr : r = q
  · subst hr
    have h0 : (s.links.countP fun l =>
        (l.base == granuleBase s.settings.granule a && l.holder != r) && l.holder == r) = 0 := by
      rw [List.countP_eq_zero]
      intro l _
      simp
    have h1 : (s.links.countP fun l => l.base == granuleBase s.settings.granule a && l.holder == r) = 0 := by
      rw [List.countP_eq_zero]
      intro l hl
      simp only [Bool.and_eq_true, beq_iff_eq, not_and]
      exact fun hb hh => h l hl hh hb
    rw [h0, h1, recordLoss_zero, recordLoss_zero]
  · rw [if_neg hr]
    congr 1
    apply List.countP_congr
    intro l _
    simp only [Bool.and_eq_true, beq_iff_eq, bne_iff_ne]
    constructor
    · rintro ⟨⟨hb, _⟩, hh⟩
      exact ⟨hb, hh⟩
    · rintro ⟨hb, hh⟩
      exact ⟨⟨hb, hh ▸ hr⟩, hh⟩

/-! ### A beat placed: issued, its entry changed, the LINK DROPs behind it taken -/

section
variable (p : Port) (entry index : Nat) (kind : BeatKind) (a : Word) (bytes : Nat) (value : Option Elem)
  (f : Entry → Entry) (s : State)

/-- The gate behind a beat at the link monitor, its entry not yet changed. -/
abbrev beatShown : State := issueBeat p entry index kind a bytes value s

/-- A beat issues, its entry is changed, and the LINK DROPs that this makes due take effect (R29, R93). -/
def placeBeat : State := takeDrops p ((beatShown p entry index kind a bytes value s).modPort p (modEntry entry f))

/-- The queue of the beat's port before its LINK DROPs take effect. -/
abbrev queueBehind : List Entry := changed entry f (s.port p).queue

theorem beatShown_queue : ((beatShown p entry index kind a bytes value s).port p).queue = (s.port p).queue := by
  have h := issueBeat_port p entry index kind a bytes value s p
  rw [h, if_pos rfl]

theorem placeBeat_links :
    (placeBeat p entry index kind a bytes value f s).links =
      withDrops p (queueBehind p entry f s) (beatShown p entry index kind a bytes value s).links := by
  unfold placeBeat
  rw [takeDrops_links, port_modPort_self, modEntry_queue, modPort_links, beatShown_queue]

/-- What a placed beat moves at its port, but for the loss record (R93, R130, R131, R156). -/
theorem placeBeat_port_self :
    OnlyLoss
      { s.port p with
        queue := settleDrops (queueBehind p entry f s), watching := false, starved := false,
        granted := (s.port p).granted + 1 }
      ((placeBeat p entry index kind a bytes value f s).port p) := by
  have h := issueBeat_port p entry index kind a bytes value s p
  rw [if_pos rfl] at h
  unfold placeBeat OnlyLoss
  rw [takeDrops_port, if_pos rfl, port_modPort_self, modEntry_queue, beatShown_queue, h, recordLoss_eq]
  rfl

theorem placeBeat_port_ne {r : Port} (hr : r ≠ p) :
    OnlyLoss (s.port r) ((placeBeat p entry index kind a bytes value f s).port r) := by
  have h := issueBeat_port p entry index kind a bytes value s r
  rw [if_neg hr] at h
  unfold placeBeat
  rw [takeDrops_port, if_neg hr, port_modPort_ne _ _ hr]
  exact h

theorem placeBeat_frame :
    placeBeat p entry index kind a bytes value f s =
      { s with
        mem :=
          { s.mem with
            outstanding :=
              s.mem.outstanding ++
                [{ port := p, entry := entry, index := index, kind := kind, addr := a, deadline := deadlineAtIssue s,
                   serial := s.nextId }] }
        memBeat := some { write := value.isSome, addr := a, bytes := bytes, element := value }
        nextId := s.nextId + 1
        links := (placeBeat p entry index kind a bytes value f s).links
        ports := (placeBeat p entry index kind a bytes value f s).ports } := by
  unfold placeBeat
  rw [takeDrops_frame, modPort_eq, setPort_eq]
  unfold beatShown
  rw [issueBeat_frame]

/-- The losses of a placed beat at a port: those at the link monitor, and those of LINK DROPs (R74, R93). -/
theorem placeBeat_loss {r : Port} {c : LossCause} {n : Nat} {x : PortRec}
    (h : (beatShown p entry index kind a bytes value s).port r = recordLoss c n x)
    (hl : x.lastLoss = (s.port r).lastLoss) (hc : x.lossCount = (s.port r).lossCount) :
    LossIs (s.port r) ((placeBeat p entry index kind a bytes value f s).port r) c n
      (if r = p then dropsOf p (queueBehind p entry f s) (beatShown p entry index kind a bytes value s).links
        else 0) := by
  unfold placeBeat
  by_cases hr : r = p
  · subst hr
    rw [takeDrops_port, if_pos rfl, if_pos rfl, port_modPort_self, modEntry_queue, modPort_links, beatShown_queue]
    unfold LossIs
    simp only [recordLoss_eq, modEntry_lastLoss, modEntry_lossCount, h, hl, hc, ne_eq, ite_not, and_self]
  · rw [takeDrops_port, if_neg hr, if_neg hr, port_modPort_ne _ _ hr, h]
    unfold LossIs
    simp [recordLoss_eq, hl, hc]

/-- The port of a beat as the link monitor finds it: its loss record is that of before. -/
theorem beatDriven_loss (r : Port) :
    ((beatDriven p entry index kind a bytes value s).port r).lastLoss = (s.port r).lastLoss ∧
      ((beatDriven p entry index kind a bytes value s).port r).lossCount = (s.port r).lossCount := by
  rw [beatDriven_port]
  split
  · next h =>
    subst h
    exact ⟨rfl, rfl⟩
  · exact ⟨rfl, rfl⟩

/-- A beat that closes links as a write (R69, R86): a WRITE or atomic write beat, or a CONDITIONAL WRITE beat whose own
link is closed already. -/
def ActsAsWrite : Prop :=
  kind = .write ∨ kind = .atomicWrite ∨ (kind = .conditionalWrite ∧ NoOwnLink p a s)

theorem beatShown_write_links (h : ActsAsWrite p kind a s) :
    (beatShown p entry index kind a bytes value s).links =
      withoutBase (granuleBase s.settings.granule a) s.links := by
  unfold beatShown
  rw [issueBeat_eq]
  rcases h with rfl | rfl | ⟨rfl, h⟩
  · exact closeOwn_closeOthers_links _ _ _
  · exact closeOwn_closeOthers_links _ _ _
  · exact closeOthers_links_of_noOwnLink (s := beatDriven p entry index _ a bytes value s) h

theorem beatShown_write_port (h : ActsAsWrite p kind a s) (r : Port) :
    (beatShown p entry index kind a bytes value s).port r =
      recordLoss (if r = p then .selfWrite else .overwritten)
        (s.links.countP fun l => l.base == granuleBase s.settings.granule a && l.holder == r)
        ((beatDriven p entry index kind a bytes value s).port r) := by
  unfold beatShown
  rw [issueBeat_eq]
  rcases h with rfl | rfl | ⟨rfl, h⟩
  · exact closeOwn_closeOthers_port _ _ _ _
  · exact closeOwn_closeOthers_port _ _ _ _
  · exact closeOthers_port_of_noOwnLink (s := beatDriven p entry index _ a bytes value s) h r

/-- A placed write beat acts on the links as R69 and R93 say. -/
theorem placeBeat_writeActs (h : ActsAsWrite p kind a s) :
    WriteActs s (placeBeat p entry index kind a bytes value f s) p a (queueBehind p entry f s) s.links := by
  have hlinks := beatShown_write_links p entry index kind a bytes value s h
  refine ⟨?_, fun r => ?_⟩
  · rw [placeBeat_links, hlinks]
  · obtain ⟨hl, hc⟩ := beatDriven_loss p entry index kind a bytes value s r
    have hloss := placeBeat_loss p entry index kind a bytes value f s
      (beatShown_write_port p entry index kind a bytes value s h r) hl hc
    rw [hlinks] at hloss
    exact hloss

/-- A read beat and an atomic read beat close nothing (R64). -/
theorem beatShown_read_links (h : kind = .read ∨ kind = .atomicRead) :
    (beatShown p entry index kind a bytes value s).links = s.links := by
  rcases h with rfl | rfl <;> rfl

theorem beatShown_read_port (h : kind = .read ∨ kind = .atomicRead) (r : Port) :
    (beatShown p entry index kind a bytes value s).port r =
      (beatDriven p entry index kind a bytes value s).port r := by
  rcases h with rfl | rfl <;> rfl

/-- A placed read beat loses its port's links to LINK DROPs alone. -/
theorem placeBeat_readActs (h : kind = .read ∨ kind = .atomicRead) :
    (placeBeat p entry index kind a bytes value f s).links =
        withDrops p (queueBehind p entry f s) s.links ∧
      ∀ r : Port,
        LossIs (s.port r) ((placeBeat p entry index kind a bytes value f s).port r) .dropped 0
          (if r = p then dropsOf p (queueBehind p entry f s) s.links else 0) := by
  have hlinks := beatShown_read_links p entry index kind a bytes value s h
  refine ⟨?_, fun r => ?_⟩
  · rw [placeBeat_links, hlinks]
  · obtain ⟨hl, hc⟩ := beatDriven_loss p entry index kind a bytes value s r
    have hloss := placeBeat_loss p entry index kind a bytes value f s (c := .dropped) (n := 0)
      (beatShown_read_port p entry index kind a bytes value s h r) hl hc
    rw [hlinks] at hloss
    exact hloss

end

/-- A port whose loss record alone changes was not served. -/
theorem unserved_of_onlyLoss {s t : State} {r : Port} (h : OnlyLoss (s.port r) (t.port r)) : Unserved s t r := by
  unfold Unserved
  rw [h]
  exact ⟨rfl, rfl, rfl, rfl, rfl⟩

/-! ### The heads are placed beats -/

/-- A READ or WRITE entry after its next beat (R29). -/
def afterBurstBeat (e : Entry) : Entry :=
  { e with
    nextBeat := e.nextBeat + 1
    state := if e.nextBeat + 1 < e.req.count then .partly else .issued }

/-- A one-beat entry after its beat (R29). -/
def afterOnlyBeat (e : Entry) : Entry := { e with nextBeat := 1, state := .issued }

/-- An atomic entry after its write beat (R107). -/
def afterAtomicWrite (old : Word) (clamped : Option Bool) (e : Entry) : Entry :=
  { e with state := .issued, oldValue := some old, clamped := clamped }

def burstKind (e : Entry) : BeatKind := if e.req.kind = .write then .write else .read

def burstValue (e : Entry) : Option Elem := if e.req.kind = .write then some (e.req.element e.nextBeat) else none

theorem placeBurst_eq (p : Port) (e : Entry) (s : State) :
    placeBurst p e s =
      placeBeat p e.id e.nextBeat (burstKind e) (e.req.beatAddr e.nextBeat) e.req.bytes (burstValue e) afterBurstBeat
        s := rfl

theorem placeLinkedRead_eq (p : Port) (e : Entry) (s : State) :
    placeLinkedRead p e s = placeBeat p e.id 0 .linkedRead e.req.addr e.req.bytes none afterOnlyBeat s := rfl

/-- The gate of a judgement that succeeds, its beat not yet issued: the link is CONSUMED and COND_OK has risen (R86). -/
def linkConsumed (p : Port) (e : Entry) (s : State) : State :=
  (s.setLinks
      (s.links.filter fun l => !(l.holder == p && l.base == granuleBase s.settings.granule e.req.addr))).modPort p
    fun x => { x with condOk := x.condOk + 1 }

theorem judgeSuccess_eq (p : Port) (e : Entry) (s : State) :
    judgeSuccess p e s =
      placeBeat p e.id 0 .conditionalWrite e.req.addr e.req.bytes (some (e.req.element 0)) afterOnlyBeat
        (linkConsumed p e s) := rfl

theorem noOwnLink_linkConsumed (p : Port) (e : Entry) (s : State) : NoOwnLink p e.req.addr (linkConsumed p e s) := by
  intro l hl hh hb
  obtain ⟨_, hk⟩ := List.mem_filter.1 hl
  change l.base = granuleBase s.settings.granule e.req.addr at hb
  simp [hh, hb] at hk

/-- The gate whose update engine has let its write beat go: the record is empty, an overhang counted (R107, R108). -/
def owedTaken (a : AtomicRecord) (s : State) : State :=
  (s.setAtomic none).setCounters
    { s.counters with overhangCount := s.counters.overhangCount + (if a.overhanging then 1 else 0) }

/-- The write beat of the update engine (R107). -/
def placeAtomicWrite (a : AtomicRecord) (old new : Word) (clamped : Option Bool) (s : State) : State :=
  placeBeat a.port a.entry 0 .atomicWrite a.addr 4 (some (new.setWidth 64)) (afterAtomicWrite old clamped)
    (owedTaken a s)

theorem issueAtomicWrite_eq {s : State} {a : AtomicRecord} {old new : Word} {clamped : Option Bool}
    (ha : s.atomic = some a) (hp : a.phase = .writeOwed old new clamped) :
    issueAtomicWrite s = (placeAtomicWrite a old new clamped s, some a.port) := by
  unfold issueAtomicWrite
  rw [ha]
  dsimp only
  rw [hp]
  rfl

theorem atomicWriteDue_iff (s : State) :
    atomicWriteDue s = true ↔
      (∃ a old new clamped, s.atomic = some a ∧ a.phase = .writeOwed old new clamped) ∧
        s.mem.state = .ready ∧ s.mem.outstanding.length < 16 := by
  unfold atomicWriteDue
  cases ha : s.atomic with
  | none => simp
  | some a =>
    cases hp : a.phase with
    | reading => simp [hp]
    | writeOwed old new clamped =>
      simp [hp, Config.outstandingMax]
      exact fun _ => decide_eq_true_iff

/-! ### A failed judgement -/

/-- The failed judgement is what the statements say the rest of the beat time goes on from (R87, R88). -/
theorem judgeFailure_noLink (p : Port) (e : Entry) (s : State) :
    judgeFailure p e .noLink s = afterFailure s p e .noLink := by
  unfold judgeFailure afterFailure
  refine state_ext_ports (fun r => ?_) ?_
  · by_cases hr : r = p
    · subst hr
      rw [takeDrops_port, if_pos rfl, port_modPort_self, setLinks_port, port_setPort_self, recordLoss_eq]
      simp only [reduceCtorEq, if_false, ne_eq, not_true, ite_not, BitVec.add_zero]
      rfl
    · rw [takeDrops_port, if_neg hr, port_modPort_ne _ _ hr, setLinks_port, port_setPort_ne _ _ hr]
  · rw [takeDrops_frame, takeDrops_links, port_modPort_self]
    rfl

theorem judgeFailure_width (p : Port) (e : Entry) (s : State) :
    judgeFailure p e .width
        (closeWhere (fun x => x.holder == p && x.base == granuleBase s.settings.granule e.req.addr) .width s) =
      afterFailure s p e .width := by
  have hown : linksOf s p (fun l => l.holder == p && l.base == granuleBase s.settings.granule e.req.addr) =
      s.links.countP fun l => l.holder == p && l.base == granuleBase s.settings.granule e.req.addr := by
    apply List.countP_congr
    intro l _
    simp only [Bool.and_eq_true, beq_iff_eq]
    tauto
  have hother : ∀ r, r ≠ p →
      linksOf s r (fun l => l.holder == p && l.base == granuleBase s.settings.granule e.req.addr) = 0 := by
    intro r hr
    unfold linksOf
    rw [List.countP_eq_zero]
    intro l _
    simp only [Bool.and_eq_true, beq_iff_eq, not_and]
    rintro ⟨hp, _⟩ he
    exact hr (he.symm.trans hp)
  unfold judgeFailure afterFailure
  refine state_ext_ports (fun r => ?_) ?_
  · by_cases hr : r = p
    · subst hr
      rw [takeDrops_port, if_pos rfl, port_modPort_self, setLinks_port, port_setPort_self, recordLoss_eq, closeWhere_port,
        hown, recordLoss_eq]
      simp only [if_true, ne_eq, ite_not]
      rfl
    · rw [takeDrops_port, if_neg hr, port_modPort_ne _ _ hr, closeWhere_port, hother r hr, setLinks_port,
        port_setPort_ne _ _ hr, recordLoss_zero]
  · rw [takeDrops_frame, takeDrops_links, port_modPort_self, closeWhere_port, hown, recordLoss_eq]
    rfl

end Sys2Proof.Proofs
end

section
/-! PROOF. The heads of the queues and the beat time that decides on each (R17 to R19, R29, R69, R84 to R88, R101, R105,
R107 to R109). -/

namespace Sys2Proof.Proofs

open Sys2Proof Sys2Proof.Machine Sys2Proof.Safety

/-! ### The issue head and the ready test -/

/-- The first entry that a test passes has only entries that fail it in front. -/
theorem find?_iff_split {q : List Entry} {f : Entry → Bool} {e : Entry} :
    q.find? f = some e ↔ f e = true ∧ ∃ front back, q = front ++ e :: back ∧ ∀ d ∈ front, f d = false := by
  rw [List.find?_eq_some_iff_append]
  simp only [Bool.not_eq_true']

theorem issueHead_iff (x : PortRec) (e : Entry) :
    issueHead x = some e ↔
      x.state ≠ .resetting ∧ e.req.kind ≠ .linkDrop ∧ x.queue.find? (fun d => !d.fullyIssued) = some e := by
  unfold issueHead
  by_cases hs : x.state = .resetting
  · simp [hs]
  · rw [if_neg hs]
    cases hf : x.queue.find? (fun d => !d.fullyIssued) with
    | none => simp
    | some d =>
      by_cases hk : d.req.kind = .linkDrop
      · simp only [hk, if_true, reduceCtorEq, false_iff, not_and]
        rintro _ hne ⟨rfl⟩
        exact hne hk
      · simp only [hk, if_false]
        constructor
        · rintro ⟨rfl⟩
          exact ⟨hs, hk, rfl⟩
        · rintro ⟨_, _, h⟩
          exact h

/-- The number of elements, as the statements write it (R115). -/
theorem count_eq (r : Request) : r.count = if r.kind = .read ∨ r.kind = .write then r.beats else 1 := by
  unfold Request.count
  cases r.kind <;> rfl

/-- The fit test by the kind of the head (R19). -/
theorem fits_iff {e : Entry} (hk : e.req.kind ≠ .linkDrop) (split : Bool) (n : Nat) :
    fits split n e = true ↔
      ((e.req.kind = .read ∨ e.req.kind = .write) →
          if split = true then 1 ≤ n else e.req.beats - e.nextBeat ≤ n) ∧
        ((e.req.kind = .linkedRead ∨ e.req.kind = .conditionalWrite) → 1 ≤ n) ∧
        ((e.req.kind = .swap ∨ e.req.kind = .boundedAdd) → 2 ≤ n) := by
  unfold fits Entry.remaining
  rw [count_eq]
  cases h : e.req.kind with
  | linkDrop => exact absurd h hk
  | read => cases split <;> simp
  | write => cases split <;> simp
  | linkedRead => simp
  | conditionalWrite => simp
  | swap => simp
  | boundedAdd => simp

theorem portReady_iff {s : State} {p : Port} {e : Entry} (h : issueHead (s.port p) = some e) (n : Nat) :
    portReady s n p = true ↔
      ((s.port p).state = .opened ∨ (s.port p).state = .halting) ∧ fits (s.settings.splits p) n e = true := by
  unfold portReady
  rw [h]
  cases (s.port p).state <;> simp

theorem portReady_of_no_head {s : State} {p : Port} (h : issueHead (s.port p) = none) (n : Nat) :
    portReady s n p = false := by
  unfold portReady
  rw [h]
  cases (s.port p).state <;> rfl

/-- Settles O29: the head is the first entry not fully issued, and the ready test is its fit, kind by kind. -/
theorem issueHeadAndReadyTest : Obligations.IssueHeadAndReadyTest := by
  intro s p e length x
  refine ⟨?_, fun h => portReady_of_no_head h length, fun h => ?_⟩
  · rw [issueHead_iff, find?_iff_split]
    simp only [Bool.not_eq_true', Bool.not_eq_false', fullyIssued_eq_false, fullyIssued_eq_true]
  · obtain ⟨_, hk, _⟩ := (issueHead_iff _ _).1 h
    rw [portReady_iff h, fits_iff hk]
    rfl

/-! ### What a head does at the decision -/

section
variable {s : State} {p : Port} {e : Entry} (hh : issueHead (s.port p) = some e) (hf : pathFree s = true) (fuel : Nat)
include hh hf

theorem tryIssue_of_burst (hk : e.req.kind = .read ∨ e.req.kind = .write)
    (hfit : s.settings.splits p = true ∨ e.remaining ≤ s.sched.budget) :
    tryIssue (fuel + 1) p s = (placeBurst p e s, some p) := by
  have hc : (s.settings.splits p || decide (e.remaining ≤ s.sched.budget)) = true := by simpa using hfit
  rw [tryIssue.eq_2]
  rcases hk with hk | hk
  · simp only [hh, hf, hk]
    exact if_pos hc
  · simp only [hh, hf, hk]
    exact if_pos hc

theorem tryIssue_of_burst_stays (hk : e.req.kind = .read ∨ e.req.kind = .write)
    (hfit : ¬(s.settings.splits p = true ∨ e.remaining ≤ s.sched.budget)) : tryIssue (fuel + 1) p s = (s, none) := by
  have hc : ¬(s.settings.splits p || decide (e.remaining ≤ s.sched.budget)) = true := by simpa using hfit
  rw [tryIssue.eq_2]
  rcases hk with hk | hk
  · simp only [hh, hf, hk]
    exact if_neg hc
  · simp only [hh, hf, hk]
    exact if_neg hc

theorem tryIssue_of_atomic (hk : e.req.kind = .swap ∨ e.req.kind = .boundedAdd) :
    tryIssue (fuel + 1) p s = if 2 ≤ s.sched.budget then (placeAtomicRead p e s, some p) else (s, none) := by
  rw [tryIssue.eq_2]
  rcases hk with hk | hk <;> simp only [hh, hf, hk] <;> rfl

theorem tryIssue_of_success (hk : e.req.kind = .conditionalWrite) {l : Link}
    (hl : linkOn s p (granuleBase s.settings.granule e.req.addr) = some l) (hw : l.width = e.req.bytes) :
    tryIssue (fuel + 1) p s = (judgeSuccess p e s, some p) := by
  have hj : judge p e s = (judgeSuccess p e s, true) := by
    unfold judge
    simp only [hl, hw, if_true]
  rw [tryIssue.eq_2]
  simp only [hh, hf, hk, hj]
  rfl

theorem tryIssue_of_width (hk : e.req.kind = .conditionalWrite) {l : Link}
    (hl : linkOn s p (granuleBase s.settings.granule e.req.addr) = some l) (hw : l.width ≠ e.req.bytes) :
    tryIssue (fuel + 1) p s = tryIssue fuel p (afterFailure s p e .width) := by
  have hj : judge p e s = (afterFailure s p e .width, false) := by
    unfold judge
    simp only [hl, hw, if_false]
    rw [judgeFailure_width]
  rw [tryIssue.eq_2]
  simp only [hh, hf, hk, hj]
  rfl

theorem tryIssue_of_noLink (hk : e.req.kind = .conditionalWrite)
    (hl : linkOn s p (granuleBase s.settings.granule e.req.addr) = none) :
    tryIssue (fuel + 1) p s = tryIssue fuel p (afterFailure s p e .noLink) := by
  have hj : judge p e s = (afterFailure s p e .noLink, false) := by
    unfold judge
    simp only [hl]
    rw [judgeFailure_noLink]
  rw [tryIssue.eq_2]
  simp only [hh, hf, hk, hj]
  rfl

end

/-! ### An atomic read beat makes no LINK DROP due -/

/-- A queue whose first unissued entry becomes PARTIAL has no LINK DROP due (R93, R105). -/
theorem dropDue_changed_partly {q : List Entry} {e : Entry} {f : Entry → Entry} (hf : ∀ x, (f x).state = .partly)
    (h : q.find? (fun d => !d.fullyIssued) = some e) : dropDue (changed e.id f q) = false := by
  have hhead : ∀ d rest, dropDue (f d :: rest) = false := by
    intro d rest
    have hu : (f d).fullyIssued = false := (fullyIssued_eq_false _).2 (.inr (hf d))
    rw [dropDue_cons_of_not_fullyIssued hu]
    simp [awaitsDrop, hf d]
  induction q with
  | nil => rfl
  | cons d rest ih =>
    rw [List.find?_cons] at h
    change dropDue ((if d.id = e.id then f d else d) :: changed e.id f rest) = false
    split at h
    · cases h
      rw [if_pos rfl]
      exact hhead _ _
    · next hd =>
      split
      · exact hhead _ _
      · rw [dropDue_cons_of_fullyIssued (by simpa using hd)]
        exact ih h

/-- An atomic entry after its read beat (R105). -/
def afterAtomicRead (e : Entry) : Entry := { e with state := .partly }

/-- The atomic record that an atomic head fills (R101, R105). -/
def recordOf (p : Port) (e : Entry) : AtomicRecord :=
  { port := p, entry := e.id, addr := e.req.addr, op := e.req.atomicOp, phase := .reading, overhanging := false }

/-- The queue behind an atomic read beat has no LINK DROP due. -/
theorem dropDue_afterAtomicRead {s : State} {p : Port} {e : Entry} (h : issueHead (s.port p) = some e) :
    dropDue (queueBehind p e.id afterAtomicRead s) = false := by
  obtain ⟨_, _, hfind⟩ := (issueHead_iff _ _).1 h
  exact dropDue_changed_partly (fun _ => rfl) hfind

theorem placeAtomicRead_eq {s : State} {p : Port} {e : Entry} (h : issueHead (s.port p) = some e) :
    placeAtomicRead p e s =
      (placeBeat p e.id 0 .atomicRead e.req.addr 4 none afterAtomicRead s).setAtomic (some (recordOf p e)) := by
  have hd := dropDue_afterAtomicRead h
  unfold placeAtomicRead placeBeat takeDrops
  rw [port_modPort_self, modEntry_queue, beatShown_queue, hd]
  rfl

/-! ### What the end of a beat time leaves -/

section
variable (o : Option Port) (v : State)

@[simp] theorem endBeat_mem : (endBeat o v).mem = v.mem := by rw [(endBeat_spec o v).2]
@[simp] theorem endBeat_links : (endBeat o v).links = v.links := by rw [(endBeat_spec o v).2]
@[simp] theorem endBeat_atomic : (endBeat o v).atomic = v.atomic := by rw [(endBeat_spec o v).2]
@[simp] theorem endBeat_memBeat : (endBeat o v).memBeat = v.memBeat := by rw [(endBeat_spec o v).2]
@[simp] theorem endBeat_nextId : (endBeat o v).nextId = v.nextId := by rw [(endBeat_spec o v).2]
@[simp] theorem endBeat_settings : (endBeat o v).settings = v.settings := by rw [(endBeat_spec o v).2]
@[simp] theorem endBeat_overhang : (endBeat o v).counters.overhangCount = v.counters.overhangCount := by
  rw [(endBeat_spec o v).2]

/-- At a port the end of a beat time moves SLACK alone (R37). -/
theorem endBeat_port (r : Port) : (endBeat o v).port r = { v.port r with slack := ((endBeat o v).port r).slack } := by
  rw [(endBeat_spec o v).1 r]
  split <;> rfl

end

/-! ### A placed beat, seen from the start of its beat time -/

/-- The gate at which a beat is placed, seen from the start s of its beat time: the deadlines have fallen, and at a port
at most COND_OK has risen. -/
structure Prepared (s u : State) : Prop where
  outstanding : u.mem.outstanding = agedBeats s
  settings : u.settings = s.settings
  nextId : u.nextId = s.nextId
  port : ∀ r : Port, u.port r = { s.port r with condOk := (u.port r).condOk }

theorem prepared_atDecision (s : State) : Prepared s (atDecision s) := ⟨rfl, rfl, rfl, fun _ => rfl⟩

theorem prepared_linkConsumed (s : State) (p : Port) (e : Entry) : Prepared s (linkConsumed p e (atDecision s)) := by
  refine ⟨rfl, rfl, rfl, fun r => ?_⟩
  unfold linkConsumed
  rw [port_modPort]
  split
  · next h =>
    subst h
    rfl
  · rfl

theorem prepared_owedTaken (s : State) (a : AtomicRecord) : Prepared s (owedTaken a (atDecision s)) :=
  ⟨rfl, rfl, rfl, fun _ => rfl⟩

section
variable {s u : State} (hu : Prepared s u) (o : Option Port) (p : Port) (entry index : Nat) (kind : BeatKind) (a : Word)
  (bytes : Nat) (value : Option Elem) (f : Entry → Entry)

/-- The gate at the end of the beat time in which a beat was placed. -/
abbrev placedAtEnd (o : Option Port) (p : Port) (entry index : Nat) (kind : BeatKind) (a : Word)
    (bytes : Nat) (value : Option Elem) (f : Entry → Entry) (u : State) : State :=
  endBeat o (placeBeat p entry index kind a bytes value f u)

include hu

theorem placed_issued :
    BeatIssued s (placedAtEnd o p entry index kind a bytes value f u) p entry index kind a bytes value := by
  obtain ⟨hout, hset, hid, _⟩ := hu
  have hd : deadlineAtIssue u = deadlineAtIssue s := by
    unfold deadlineAtIssue
    rw [hset]
  have hport := placeBeat_port_self p entry index kind a bytes value f u
  unfold BeatIssued placedAtEnd
  rw [endBeat_mem, endBeat_memBeat, endBeat_nextId, endBeat_port, hport, placeBeat_frame]
  dsimp only
  rw [hout, hid, hd]
  exact ⟨rfl, rfl, rfl, rfl, rfl⟩

theorem placed_port_self :
    ((placedAtEnd o p entry index kind a bytes value f u).port p).queue =
        settleDrops (changed entry f (s.port p).queue) ∧
      ((placedAtEnd o p entry index kind a bytes value f u).port p).condOk = (u.port p).condOk ∧
      ((placedAtEnd o p entry index kind a bytes value f u).port p).condFail = (s.port p).condFail := by
  have hport := placeBeat_port_self p entry index kind a bytes value f u
  have hself := hu.port p
  have hq : (u.port p).queue = (s.port p).queue := by rw [hself]
  have hc : (u.port p).condFail = (s.port p).condFail := by rw [hself]
  unfold placedAtEnd
  rw [endBeat_port, hport]
  exact ⟨by rw [queueBehind, hq], rfl, hc⟩

theorem placed_unserved {r : Port} (hr : r ≠ p) (hc : (u.port r).condOk = (s.port r).condOk) :
    Unserved s (placedAtEnd o p entry index kind a bytes value f u) r := by
  have hport := placeBeat_port_ne p entry index kind a bytes value f u hr
  have hself := hu.port r
  rw [hc] at hself
  unfold Unserved placedAtEnd
  rw [endBeat_port, hport, hself]
  exact ⟨rfl, rfl, rfl, rfl, rfl⟩

theorem placed_lossIs {r : Port} {c : LossCause} {n m : Nat}
    (h : LossIs (u.port r) ((placeBeat p entry index kind a bytes value f u).port r) c n m) :
    LossIs (s.port r) ((placedAtEnd o p entry index kind a bytes value f u).port r) c n m := by
  have hself := hu.port r
  unfold LossIs at h ⊢
  unfold placedAtEnd
  rw [endBeat_port]
  rw [hself] at h
  exact h

theorem placed_writeActs (h : ActsAsWrite p kind a u) :
    WriteActs s (placedAtEnd o p entry index kind a bytes value f u) p a (changed entry f (s.port p).queue)
      u.links := by
  have hself := hu.port p
  have hq : (u.port p).queue = (s.port p).queue := by rw [hself]
  obtain ⟨hlinks, hloss⟩ := placeBeat_writeActs p entry index kind a bytes value f u h
  unfold queueBehind at hlinks hloss
  rw [hq, hu.settings] at hlinks
  refine ⟨?_, fun r => ?_⟩
  · unfold placedAtEnd
    rw [endBeat_links, hlinks]
  · have hr := placed_lossIs hu o p entry index kind a bytes value f (hloss r)
    rw [hq, hu.settings] at hr
    exact hr

theorem placed_readActs (h : kind = .read ∨ kind = .atomicRead) :
    (placedAtEnd o p entry index kind a bytes value f u).links =
        withDrops p (changed entry f (s.port p).queue) u.links ∧
      ∀ r : Port,
        LossIs (s.port r) ((placedAtEnd o p entry index kind a bytes value f u).port r) .dropped 0
          (if r = p then dropsOf p (changed entry f (s.port p).queue) u.links else 0) := by
  have hself := hu.port p
  have hq : (u.port p).queue = (s.port p).queue := by rw [hself]
  obtain ⟨hlinks, hloss⟩ := placeBeat_readActs p entry index kind a bytes value f u h
  unfold queueBehind at hlinks hloss
  rw [hq] at hlinks
  refine ⟨?_, fun r => ?_⟩
  · unfold placedAtEnd
    rw [endBeat_links, hlinks]
  · have hr := placed_lossIs hu o p entry index kind a bytes value f (hloss r)
    rw [hq] at hr
    exact hr

end

/-! ### The beat time of a head that may issue -/

/-- A head that may issue has its decision made in the beat time. -/
theorem beatTime_of_decision {s : State} {p : Port} {e : Entry} (h : MayIssue s p e) {t : State} {o : Option Port}
    (ht : ∀ fuel, tryIssue (fuel + 1) p (atDecision s) = (t, o)) : beatTime s = endBeat o t := by
  obtain ⟨_, _, _, ha, hrec, hg, hh⟩ := h
  obtain ⟨_, _, _, hmem, _⟩ := issueHead_some hh
  obtain ⟨n, hn⟩ := Nat.exists_eq_add_one_of_ne_zero (List.length_pos_of_mem hmem).ne'
  have hd : decideIssue (atDecision s) = (t, o) := by
    rw [decideIssue_of_grantee (s := atDecision s) ha hrec hg, atDecision_port, hn, ht]
  rw [beatTime_eq, hd]

theorem mayIssue_at {s : State} {p : Port} {e : Entry} (h : MayIssue s p e) :
    issueHead ((atDecision s).port p) = some e ∧ pathFree (atDecision s) = true := by
  obtain ⟨_, hm, hlen, ha, _, _, hh⟩ := h
  exact ⟨hh, pathFree_atDecision hm hlen ha⟩

/-- A beat time in which nothing issues and nothing is judged. -/
theorem noBeat_endBeat (s : State) : NoBeat s (endBeat none (atDecision s)) := by
  unfold NoBeat Unserved
  rw [endBeat_mem, endBeat_memBeat, endBeat_nextId, endBeat_links, endBeat_atomic]
  refine ⟨rfl, rfl, rfl, rfl, rfl, fun q => ?_, fun q => ?_⟩
  · rw [endBeat_port]
    exact ⟨rfl, rfl, rfl, rfl, rfl⟩
  · rw [endBeat_port]
    exact ⟨rfl, rfl⟩

theorem completes_beatTime {s : State} {P : State → Prop} (hpass : beatCanPass s = true) (h : P (beatTime s)) :
    Completes (exec .issueDecision s) P := ⟨_, exec_issueDecision_of_beatCanPass hpass, h⟩

/-! ### A burst head -/

/-- The element of a write beat, as the statements write it (R115, R117). -/
theorem element_eq (r : Request) (index : Nat) :
    r.element index = BitVec.ofNat 64 ((r.data.getD index 0).toNat % 256 ^ 2 ^ r.size.toNat) := maskElem_eq r _

theorem afterBurstBeat_eq (e : Entry) :
    afterBurstBeat e =
      { e with
        nextBeat := e.nextBeat + 1
        state :=
          if e.nextBeat + 1 < (if e.req.kind = .read ∨ e.req.kind = .write then e.req.beats else 1) then .partly
          else .issued } := by
  unfold afterBurstBeat
  rw [count_eq]

theorem afterBurstBeat_funext : afterBurstBeat = fun e : Entry =>
    { e with
      nextBeat := e.nextBeat + 1
      state :=
        if e.nextBeat + 1 < (if e.req.kind = .read ∨ e.req.kind = .write then e.req.beats else 1) then .partly
        else .issued } := funext afterBurstBeat_eq

theorem burstKind_eq {e : Entry} (hk : e.req.kind = .read ∨ e.req.kind = .write) :
    burstKind e = if e.req.kind = .read then .read else .write := by
  unfold burstKind
  rcases hk with hk | hk <;> simp [hk]

theorem burstValue_eq {e : Entry} (hk : e.req.kind = .read ∨ e.req.kind = .write) :
    burstValue e =
      if e.req.kind = .read then none
      else some (BitVec.ofNat 64 ((e.req.data.getD e.nextBeat 0).toNat % 256 ^ 2 ^ e.req.size.toNat)) := by
  unfold burstValue
  rcases hk with hk | hk <;> simp [hk, element_eq]

/-- Settles O31: a head that may be split, or is short enough, is a placed beat of its next index; any other leaves the
beat time empty. -/
theorem burstHeadPlacesItsNextBeat : Obligations.BurstHeadPlacesItsNextBeat := by
  intro s p e h hk bytes a element q
  obtain ⟨hh, hf⟩ := mayIssue_at h
  have hrem : e.remaining = e.req.beats - e.nextBeat := by
    unfold Entry.remaining
    rw [count_eq, if_pos hk]
  have hpass := h.1
  split
  · next hfit =>
    have hfit' : (atDecision s).settings.splits p = true ∨ e.remaining ≤ (atDecision s).sched.budget := by
      rw [hrem]
      exact hfit
    have ht := beatTime_of_decision h fun fuel => tryIssue_of_burst hh hf fuel hk hfit'
    rw [placeBurst_eq] at ht
    have hu := prepared_atDecision s
    have hissued := placed_issued hu (some p) p e.id e.nextBeat (burstKind e) (e.req.beatAddr e.nextBeat) e.req.bytes
      (burstValue e) afterBurstBeat
    obtain ⟨hqueue, hok, hfail⟩ := placed_port_self hu (some p) p e.id e.nextBeat (burstKind e)
      (e.req.beatAddr e.nextBeat) e.req.bytes (burstValue e) afterBurstBeat
    have hq : changed e.id afterBurstBeat (s.port p).queue = q := by
      rw [afterBurstBeat_funext]
    have ha := h.2.2.2.1
    refine completes_beatTime hpass ⟨beatTime_frame s, ?_⟩
    rw [ht]
    refine ⟨?issued, ?queue, hok, hfail, fun r hr => ?unserved, ?atomic, ?overhang, fun hw => ?write, fun hr => ?read⟩
    case issued =>
      rw [← burstKind_eq hk, ← burstValue_eq hk]
      exact hissued
    case queue => rw [hqueue, hq]
    case unserved => exact placed_unserved hu _ _ _ _ _ _ _ _ _ hr rfl
    case atomic =>
      rw [endBeat_atomic, placeBeat_frame]
      exact ha
    case overhang =>
      rw [endBeat_overhang, placeBeat_frame]
      rfl
    case write =>
      have hkind : burstKind e = .write := if_pos hw
      have hacts := placed_writeActs hu (some p) p e.id e.nextBeat (burstKind e) (e.req.beatAddr e.nextBeat)
        e.req.bytes (burstValue e) afterBurstBeat (.inl hkind)
      rw [hq] at hacts
      exact hacts
    case read =>
      have hkind : burstKind e = .read := if_neg (by simp [hr])
      have hacts := placed_readActs hu (some p) p e.id e.nextBeat (burstKind e) (e.req.beatAddr e.nextBeat)
        e.req.bytes (burstValue e) afterBurstBeat (.inl hkind)
      rw [hq] at hacts
      exact hacts
  · next hfit =>
    have hfit' : ¬((atDecision s).settings.splits p = true ∨ e.remaining ≤ (atDecision s).sched.budget) := by
      rw [hrem]
      exact hfit
    have ht := beatTime_of_decision h fun fuel => tryIssue_of_burst_stays hh hf fuel hk hfit'
    refine completes_beatTime hpass ⟨beatTime_frame s, ?_⟩
    rw [ht]
    exact noBeat_endBeat s

end Sys2Proof.Proofs
end

section
/-! PROOF. CONDITIONAL WRITE and atomic heads, and the owed atomic write (R29, R36, R64, R69, R84 to R88, R101, R105, R107
to R109). -/

namespace Sys2Proof.Proofs

open Sys2Proof Sys2Proof.Machine Sys2Proof.Safety

/-! ### An atomic head -/

theorem endBeat_setAtomic (o : Option Port) (v : State) (a : Option AtomicRecord) :
    endBeat o (v.setAtomic a) = (endBeat o v).setAtomic a := by
  refine state_ext_ports (fun r => ?_) ?_
  · rw [setAtomic_port, (endBeat_spec o _).1, (endBeat_spec o v).1]
    rfl
  · rw [(endBeat_spec o (v.setAtomic a)).2, (endBeat_spec o v).2]
    rfl

/-- The operand of an atomic head, as the statements write it (R101, R117). -/
theorem atomicOp_eq {r : Request} (hk : r.kind = .swap ∨ r.kind = .boundedAdd) :
    r.atomicOp =
      if r.kind = .swap then .swap (BitVec.ofNat 32 (r.data.getD 0 0).toNat)
      else .boundedAdd (BitVec.ofNat 32 (r.data.getD 0 0).toNat) (BitVec.ofNat 32 (r.data.getD 1 0).toNat) := by
  unfold Request.atomicOp Request.word
  rcases hk with hk | hk <;> simp [hk]

/-- Settles O35: with two beat times left the head is a placed beat that fills the record; with fewer the beat time stays
empty. -/
theorem atomicHeadStartsItsUpdate : Obligations.AtomicHeadStartsItsUpdate := by
  intro s p e h hk low
  obtain ⟨hh, hf⟩ := mayIssue_at h
  have hpass := h.1
  split
  · next hb =>
    have hb' : 2 ≤ (atDecision s).sched.budget := hb
    have ht := beatTime_of_decision h fun fuel => (tryIssue_of_atomic hh hf fuel hk).trans (if_pos hb')
    rw [placeAtomicRead_eq hh, endBeat_setAtomic] at ht
    have hu := prepared_atDecision s
    have hissued := placed_issued hu (some p) p e.id 0 .atomicRead e.req.addr 4 none afterAtomicRead
    obtain ⟨hqueue, hok, hfail⟩ := placed_port_self hu (some p) p e.id 0 .atomicRead e.req.addr 4 none afterAtomicRead
    obtain ⟨hlinks, hloss⟩ :=
      placed_readActs hu (some p) p e.id 0 .atomicRead e.req.addr 4 none afterAtomicRead (.inr rfl)
    have hd : dropDue (changed e.id afterAtomicRead (s.port p).queue) = false := dropDue_afterAtomicRead hh
    refine completes_beatTime hpass ⟨beatTime_frame s, ?_⟩
    rw [ht]
    refine ⟨hissued, ?queue, hok, hfail, fun r hr => ?unserved, ?overhang, ?links, fun r => ?losses, ?record⟩
    case queue =>
      rw [setAtomic_port, hqueue, settleDrops_of_not_due hd]
      rfl
    case unserved => exact placed_unserved hu (some p) p e.id 0 .atomicRead e.req.addr 4 none afterAtomicRead hr rfl
    case overhang =>
      rw [setAtomic_counters, endBeat_overhang, placeBeat_frame]
      rfl
    case links =>
      rw [setAtomic_links, hlinks]
      unfold withDrops
      rw [if_neg (by simp [hd])]
      rfl
    case losses =>
      have hr := hloss r
      have hn : (if r = p then dropsOf p (changed e.id afterAtomicRead (s.port p).queue) (atDecision s).links else 0) =
          0 := by
        unfold dropsOf
        simp [hd]
      rw [hn] at hr
      unfold LossIs at hr
      simpa using hr
    case record =>
      unfold recordOf
      rw [setAtomic_atomic, atomicOp_eq hk]
  · next hb =>
    have hb' : ¬2 ≤ (atDecision s).sched.budget := hb
    have ht := beatTime_of_decision h fun fuel => (tryIssue_of_atomic hh hf fuel hk).trans (if_neg hb')
    refine completes_beatTime hpass ⟨beatTime_frame s, ?_⟩
    rw [ht]
    exact noBeat_endBeat s

/-! ### The owed atomic write -/

/-- An owed atomic write issues in the beat time, whatever the slot (R107). -/
theorem beatTime_of_owed {s : State} {a : AtomicRecord} {old new : Word} {clamped : Option Bool}
    (hm : s.mem.state = .ready) (hlen : s.mem.outstanding.length < 16) (ha : s.atomic = some a)
    (hp : a.phase = .writeOwed old new clamped) :
    atomicWriteDue s = true ∧
      beatTime s = endBeat (some a.port) (placeAtomicWrite a old new clamped (atDecision s)) := by
  have hdue : atomicWriteDue s = true := (atomicWriteDue_iff s).2 ⟨⟨a, old, new, clamped, ha, hp⟩, hm, hlen⟩
  have hlen' : (atDecision s).mem.outstanding.length < 16 := by
    rw [atDecision_outstanding, agedBeats, List.length_map]
    exact hlen
  have hdue' : atomicWriteDue (atDecision s) = true :=
    (atomicWriteDue_iff _).2 ⟨⟨a, old, new, clamped, ha, hp⟩, hm, hlen'⟩
  refine ⟨hdue, ?_⟩
  have hd : decideIssue (atDecision s) = (placeAtomicWrite a old new clamped (atDecision s), some a.port) := by
    unfold decideIssue
    rw [if_pos hdue', issueAtomicWrite_eq (s := atDecision s) ha hp]
  rw [beatTime_eq, hd]

theorem exec_atomicWriteBeat_of_due {s : State} (h : beatCanPass s = true) (hd : atomicWriteDue s = true) :
    exec .atomicWriteBeat s = .next (beatTime s) := by
  change execAtomicWriteBeat s = _
  unfold execAtomicWriteBeat
  rw [h, hd]
  rfl

theorem setWidth_word (x : Word) : x.setWidth 64 = BitVec.ofNat 64 x.toNat := by
  apply BitVec.eq_of_toNat_eq
  simp

/-- Settles O36: the beat time of either command is the placed write beat of the record. -/
theorem owedAtomicWriteIssues : Obligations.OwedAtomicWriteIssues := by
  intro s i a old new clamped hpass hi hm hlen ha hp q
  obtain ⟨hdue, ht⟩ := beatTime_of_owed hm hlen ha hp
  have hbeat := exec_issueDecision_of_beatCanPass hpass
  have hwrite := exec_atomicWriteBeat_of_due hpass hdue
  have hexec : exec i s = .next (beatTime s) := by
    rcases hi with rfl | rfl
    · exact hbeat
    · exact hwrite
  have hu := prepared_owedTaken s a
  have hissued := placed_issued hu (some a.port) a.port a.entry 0 .atomicWrite a.addr 4 (some (new.setWidth 64))
    (afterAtomicWrite old clamped)
  obtain ⟨hqueue, hok, hfail⟩ := placed_port_self hu (some a.port) a.port a.entry 0 .atomicWrite a.addr 4
    (some (new.setWidth 64)) (afterAtomicWrite old clamped)
  have hacts := placed_writeActs hu (some a.port) a.port a.entry 0 .atomicWrite a.addr 4 (some (new.setWidth 64))
    (afterAtomicWrite old clamped) (.inr (.inl rfl))
  refine ⟨hwrite.trans hbeat.symm, _, hexec, beatTime_frame s, ?_⟩
  rw [ht]
  unfold placeAtomicWrite
  refine ⟨?issued, hqueue, hok, hfail, fun r hr => ?unserved, ?atomic, ?overhang, hacts⟩
  case issued =>
    rw [← setWidth_word]
    exact hissued
  case unserved => exact placed_unserved hu _ _ _ _ _ _ _ _ _ hr rfl
  case atomic =>
    rw [endBeat_atomic, placeBeat_frame]
    rfl
  case overhang =>
    rw [endBeat_overhang, placeBeat_frame]
    rfl

/-! ### The entries considered in one beat time -/

/-- The entries of a queue that are not fully issued. -/
def unissued (q : List Entry) : Nat := q.countP fun e => !e.fullyIssued

theorem unissued_settleDrops_le (q : List Entry) : unissued (settleDrops q) ≤ unissued q := by
  induction q with
  | nil => exact le_refl _
  | cons e rest ih =>
    unfold unissued at ih ⊢
    cases hf : e.fullyIssued with
    | true =>
      rw [settleDrops_cons_of_fullyIssued hf, List.countP_cons, List.countP_cons]
      omega
    | false =>
      cases hd : awaitsDrop e with
      | true =>
        rw [settleDrops_cons_of_awaitsDrop hf hd, List.countP_cons, List.countP_cons]
        have hready : (!({ e with state := .ready .done } : Entry).fullyIssued) = false := rfl
        rw [hready]
        simp only [Bool.false_eq_true, if_false]
        omega
      | false =>
        rw [settleDrops_cons_of_unissued hf hd]

/-- An entry that becomes fully issued leaves the unissued ones. -/
theorem unissued_changed_lt {q : List Entry} {e : Entry} {f : Entry → Entry} (hf : ∀ x, (f x).fullyIssued = true)
    (hm : e ∈ q) (he : e.fullyIssued = false) : unissued (changed e.id f q) < unissued q := by
  have hle : ∀ l : List Entry, unissued (changed e.id f l) ≤ unissued l := by
    intro l
    unfold unissued changed
    rw [List.countP_map]
    refine List.countP_mono_left fun d _ hd => ?_
    by_cases hid : d.id = e.id
    · simp [hid, hf] at hd
    · simpa [hid] using hd
  obtain ⟨front, back, rfl⟩ := List.append_of_mem hm
  have hfront := hle front
  have hback := hle back
  have hchanged : changed e.id f (front ++ e :: back) = changed e.id f front ++ f e :: changed e.id f back := by
    simp [changed]
  rw [hchanged]
  unfold unissued at *
  rw [List.countP_append, List.countP_append, List.countP_cons, List.countP_cons, hf e, he]
  simp only [Bool.not_true, Bool.not_false, Bool.false_eq_true, if_false, if_true]
  omega

theorem afterFailure_port_self (s : State) (p : Port) (e : Entry) (v : Verdict) :
    ((afterFailure s p e v).port p).queue =
      settleDrops (changed e.id (fun x => { x with state := .ready v }) (s.port p).queue) := by
  unfold afterFailure
  dsimp only
  rw [setLinks_port, port_setPort_self]

/-- A failed judgement leaves one entry fewer to consider. -/
theorem unissued_afterFailure_lt {s : State} {p : Port} {e : Entry} (hh : issueHead (s.port p) = some e) (v : Verdict) :
    unissued ((afterFailure s p e v).port p).queue < unissued (s.port p).queue := by
  obtain ⟨_, _, he, hm, _⟩ := issueHead_some hh
  rw [afterFailure_port_self]
  exact lt_of_le_of_lt (unissued_settleDrops_le _) (unissued_changed_lt (fun _ => rfl) hm he)

theorem tryIssue_of_no_head {s : State} {p : Port} (h : issueHead (s.port p) = none) (fuel : Nat) :
    tryIssue fuel p s = (s, none) := by
  cases fuel with
  | zero => rfl
  | succ n =>
    rw [tryIssue.eq_2]
    simp only [h]

theorem issueHead_eq_none_of_issued {x : PortRec} (h : unissued x.queue = 0) : issueHead x = none := by
  cases hh : issueHead x with
  | none => rfl
  | some e =>
    obtain ⟨_, _, he, hm, _⟩ := issueHead_some hh
    unfold unissued at h
    rw [List.countP_eq_zero] at h
    exact absurd (by simp [he]) (h e hm)

/-- Fuel for as many entries as are not fully issued is enough. -/
theorem tryIssue_fuel (p : Port) : ∀ (fuel fuel' : Nat) (s : State), unissued (s.port p).queue ≤ fuel →
    unissued (s.port p).queue ≤ fuel' → tryIssue fuel p s = tryIssue fuel' p s := by
  intro fuel
  induction fuel with
  | zero =>
    intro fuel' s h _
    have hn := issueHead_eq_none_of_issued (Nat.le_zero.1 h)
    rw [tryIssue_of_no_head hn, tryIssue_of_no_head hn]
  | succ n ih =>
    intro fuel' s h h'
    cases fuel' with
    | zero =>
      have hn := issueHead_eq_none_of_issued (Nat.le_zero.1 h')
      rw [tryIssue_of_no_head hn, tryIssue_of_no_head hn]
    | succ n' =>
      cases hh : issueHead (s.port p) with
      | none => rw [tryIssue_of_no_head hh, tryIssue_of_no_head hh]
      | some e =>
        have hless := fun v => unissued_afterFailure_lt hh v
        cases hf : pathFree s with
        | false =>
          rw [tryIssue.eq_2, tryIssue.eq_2]
          simp only [hh, hf]
          rfl
        | true =>
          cases hk : e.req.kind with
          | conditionalWrite =>
            cases hl : linkOn s p (granuleBase s.settings.granule e.req.addr) with
            | none =>
              have hlt := hless .noLink
              rw [tryIssue_of_noLink hh hf n hk hl, tryIssue_of_noLink hh hf n' hk hl]
              exact ih n' _ (by omega) (by omega)
            | some l =>
              by_cases hw : l.width = e.req.bytes
              · rw [tryIssue_of_success hh hf n hk hl hw, tryIssue_of_success hh hf n' hk hl hw]
              · have hlt := hless .width
                rw [tryIssue_of_width hh hf n hk hl hw, tryIssue_of_width hh hf n' hk hl hw]
                exact ih n' _ (by omega) (by omega)
          | _ =>
            rw [tryIssue.eq_2, tryIssue.eq_2]
            simp only [hh, hf, hk]

/-! ### A CONDITIONAL WRITE head -/

theorem unissued_le_length (q : List Entry) : unissued q ≤ q.length := List.countP_le_length

theorem beatCanPass_afterFailure (s : State) (p : Port) (e : Entry) (v : Verdict) :
    beatCanPass (afterFailure s p e v) = beatCanPass s := rfl

theorem atDecision_afterFailure (s : State) (p : Port) (e : Entry) (v : Verdict) :
    atDecision (afterFailure s p e v) = afterFailure (atDecision s) p e v := rfl

/-- The rest of the beat time after a failed judgement is a beat time from what the judgement left (R87, R88). -/
theorem exec_issueDecision_of_failure {s : State} {p : Port} {e : Entry} {v : Verdict} (h : MayIssue s p e)
    (ht : ∀ fuel, tryIssue (fuel + 1) p (atDecision s) = tryIssue fuel p (afterFailure (atDecision s) p e v)) :
    exec .issueDecision s = exec .issueDecision (afterFailure s p e v) := by
  obtain ⟨hpass, _, _, ha, hrec, hg, hh⟩ := h
  obtain ⟨_, _, _, hmem, _⟩ := issueHead_some hh
  obtain ⟨n, hn⟩ := Nat.exists_eq_add_one_of_ne_zero (List.length_pos_of_mem hmem).ne'
  have hless := unissued_afterFailure_lt (s := atDecision s) hh v
  have hcount := unissued_le_length (s.port p).queue
  rw [atDecision_port] at hless
  have hd : decideIssue (atDecision s) = decideIssue (atDecision (afterFailure s p e v)) := by
    rw [decideIssue_of_grantee (s := atDecision s) ha hrec hg, atDecision_port, hn, ht,
      decideIssue_of_grantee (s := atDecision (afterFailure s p e v)) ha hrec hg, atDecision_port, ← atDecision_afterFailure]
    refine tryIssue_fuel p _ _ _ ?_ (unissued_le_length _)
    rw [atDecision_afterFailure]
    omega
  rw [exec_issueDecision_of_beatCanPass hpass,
    exec_issueDecision_of_beatCanPass (s := afterFailure s p e v) hpass, beatTime_eq, beatTime_eq, hd]

theorem linkConsumed_condOk_ne {s : State} {p r : Port} (e : Entry) (hr : r ≠ p) :
    ((linkConsumed p e s).port r).condOk = (s.port r).condOk := by
  unfold linkConsumed
  rw [port_modPort_ne _ _ hr]
  rfl

/-- Settles O33: a matching link makes the head a placed beat behind the consumed link; any other outcome is the rest of
the beat time from the failure. -/
theorem conditionalWriteIsJudged : Obligations.ConditionalWriteIsJudged := by
  intro s p e h hk bytes mine q
  obtain ⟨hh, hf⟩ := mayIssue_at h
  refine ⟨fun hl => exec_issueDecision_of_failure h fun fuel => tryIssue_of_noLink hh hf fuel hk hl,
    fun l hl => ⟨fun hw => ?_, fun hw =>
      exec_issueDecision_of_failure h fun fuel => tryIssue_of_width hh hf fuel hk (Option.mem_def.1 hl) hw⟩⟩
  have ht := beatTime_of_decision h fun fuel => tryIssue_of_success hh hf fuel hk (Option.mem_def.1 hl) hw
  rw [judgeSuccess_eq] at ht
  have hu := prepared_linkConsumed s p e
  have hissued := placed_issued hu (some p) p e.id 0 .conditionalWrite e.req.addr e.req.bytes
    (some (e.req.element 0)) afterOnlyBeat
  obtain ⟨hqueue, hok, hfail⟩ := placed_port_self hu (some p) p e.id 0 .conditionalWrite e.req.addr e.req.bytes
    (some (e.req.element 0)) afterOnlyBeat
  have hacts := placed_writeActs hu (some p) p e.id 0 .conditionalWrite e.req.addr e.req.bytes
    (some (e.req.element 0)) afterOnlyBeat (.inr (.inr ⟨rfl, noOwnLink_linkConsumed p e (atDecision s)⟩))
  have ha := h.2.2.2.1
  refine completes_beatTime h.1 ⟨beatTime_frame s, ?_⟩
  rw [ht]
  refine ⟨?issued, hqueue, ?condOk, hfail, fun r hr => ?unserved, ?atomic, ?overhang, hacts⟩
  case issued =>
    rw [element_eq] at hissued ⊢
    exact hissued
  case condOk =>
    rw [hok]
    unfold linkConsumed
    rw [port_modPort_self]
    rfl
  case unserved => exact placed_unserved hu _ _ _ _ _ _ _ _ _ hr (linkConsumed_condOk_ne e hr)
  case atomic =>
    rw [endBeat_atomic, placeBeat_frame]
    exact ha
  case overhang =>
    rw [endBeat_overhang, placeBeat_frame]
    rfl

end Sys2Proof.Proofs
end

section
/-! PROOF. What an issue decision can do, listed once; one beat time; and the links on the granule of a write beat (R24 to
R28, R31, R37, R58, R65, R69, R86, R100, R106, R134, R135, R139). -/

namespace Sys2Proof.Proofs

open Sys2Proof Sys2Proof.Machine Sys2Proof.Safety

/-! ### What an issue decision can do -/

/-- The issue decision considers the head e of the grantee p (R27). -/
structure Considers (s : State) (p : Port) (e : Entry) : Prop where
  record : s.sched.record.isSome = true
  grantee : s.sched.grantee = some p
  free : pathFree s = true
  head : issueHead (s.port p) = some e

/-- A CONDITIONAL WRITE head is judged and fails (R87, R88). -/
inductive Fails (s : State) : State → Prop
  | failed (p : Port) (e : Entry) (v : Verdict) (h : Considers s p e) (hk : e.req.kind = .conditionalWrite) :
    Fails s (afterFailure s p e v)

/-- A beat is placed, and whose (R29, R86, R105, R107). -/
inductive Places (s : State) : State → Port → Prop
  | burst (p : Port) (e : Entry) (h : Considers s p e) (hk : e.req.kind = .read ∨ e.req.kind = .write) :
    Places s (placeBurst p e s) p
  | linkedRead (p : Port) (e : Entry) (h : Considers s p e) (hk : e.req.kind = .linkedRead) :
    Places s (placeLinkedRead p e s) p
  | success (p : Port) (e : Entry) (h : Considers s p e) (hk : e.req.kind = .conditionalWrite) :
    Places s (judgeSuccess p e s) p
  | atomicRead (p : Port) (e : Entry) (h : Considers s p e) (hk : e.req.kind = .swap ∨ e.req.kind = .boundedAdd) :
    Places s (placeAtomicRead p e s) p
  | owed (a : AtomicRecord) (old new : Word) (clamped : Option Bool) (ha : s.atomic = some a)
    (hp : a.phase = .writeOwed old new clamped) (hm : s.mem.state = .ready) (hlen : s.mem.outstanding.length < 16) :
    Places s (placeAtomicWrite a old new clamped s) a.port

/-- Failed judgements, one after another, and then at most one beat. -/
def Decides (s : State) (r : State × Option Port) : Prop :=
  ∃ u, Relation.ReflTransGen Fails s u ∧ (r = (u, none) ∨ ∃ t p, Places u t p ∧ r = (t, some p))

theorem decides_idle (s : State) : Decides s (s, none) := ⟨s, .refl, .inl rfl⟩

theorem decides_of_places {s t : State} {p : Port} (h : Places s t p) : Decides s (t, some p) :=
  ⟨s, .refl, .inr ⟨t, p, h, rfl⟩⟩

theorem decides_of_fails {s u : State} {r : State × Option Port} (h : Fails s u) (hr : Decides u r) : Decides s r := by
  obtain ⟨v, hv, hcases⟩ := hr
  exact ⟨v, .head h hv, hcases⟩

theorem pathFree_iff (s : State) :
    pathFree s = true ↔ s.mem.state = .ready ∧ s.mem.outstanding.length < 16 ∧ s.atomic = none := by
  unfold pathFree
  simp [Config.outstandingMax, and_assoc]
  exact fun _ _ => decide_eq_true_iff

theorem tryIssue_decides (p : Port) : ∀ (fuel : Nat) (s : State), s.sched.record.isSome = true →
    s.sched.grantee = some p → Decides s (tryIssue fuel p s) := by
  intro fuel
  induction fuel with
  | zero => exact fun s _ _ => decides_idle s
  | succ n ih =>
    intro s hrec hg
    rcases tryIssue_succ n p s with h | ⟨e, hh, hf, hcases⟩
    · rw [h]
      exact decides_idle s
    · have hc : Considers s p e := ⟨hrec, hg, hf, hh⟩
      rcases hcases with ⟨hk, _, h⟩ | ⟨hk, h⟩ | ⟨hk, hj, h⟩ | ⟨hk, hj, h⟩ | ⟨hk, _, h⟩
      · rw [h]
        exact decides_of_places (.burst p e hc hk)
      · rw [h]
        exact decides_of_places (.linkedRead p e hc hk)
      · rcases judge_cases p e s with ⟨_, _, _, hjudge⟩ | ⟨_, _, _, hjudge⟩ | ⟨_, hjudge⟩
        · rw [h, hjudge]
          exact decides_of_places (.success p e hc hk)
        · simp [hjudge] at hj
        · simp [hjudge] at hj
      · rcases judge_cases p e s with ⟨_, _, _, hjudge⟩ | ⟨_, _, _, hjudge⟩ | ⟨_, hjudge⟩
        · simp [hjudge] at hj
        · rw [h, hjudge, judgeFailure_width]
          exact decides_of_fails (.failed p e .width hc hk) (ih _ hrec hg)
        · rw [h, hjudge, judgeFailure_noLink]
          exact decides_of_fails (.failed p e .noLink hc hk) (ih _ hrec hg)
      · rw [h]
        exact decides_of_places (.atomicRead p e hc hk)

/-- Every issue decision is failed judgements and then at most one beat. -/
theorem decideIssue_decides (s : State) : Decides s (decideIssue s) := by
  cases hd : atomicWriteDue s with
  | true =>
    obtain ⟨⟨a, old, new, clamped, ha, hp⟩, hm, hlen⟩ := (atomicWriteDue_iff s).1 hd
    have h : decideIssue s = (placeAtomicWrite a old new clamped s, some a.port) := by
      unfold decideIssue
      rw [if_pos hd, issueAtomicWrite_eq ha hp]
    rw [h]
    exact decides_of_places (.owed a old new clamped ha hp hm hlen)
  | false =>
    unfold decideIssue
    rw [if_neg (by simp [hd])]
    split
    · next r p hrec hg => exact tryIssue_decides p _ s (by simp [hrec]) hg
    · exact decides_idle s

/-- With nothing to consider and no write owed the decision changes nothing. -/
theorem decideIssue_idle {s : State} (hc : ∀ p e, ¬Considers s p e) (hd : atomicWriteDue s = false) :
    decideIssue s = (s, none) := by
  obtain ⟨u, hu, hcases⟩ := decideIssue_decides s
  have hus : s = u := by
    rcases hu.cases_head with h | ⟨_, ⟨p, e, _, h, _⟩, _⟩
    · exact h
    · exact absurd h (hc p e)
  subst hus
  rcases hcases with h | ⟨t, p, hp, _⟩
  · exact h
  · cases hp with
    | burst _ e h _ => exact absurd h (hc _ e)
    | linkedRead _ e h _ => exact absurd h (hc _ e)
    | success _ e h _ => exact absurd h (hc _ e)
    | atomicRead _ e h _ => exact absurd h (hc _ e)
    | owed a old new clamped ha hp hm hlen =>
      have hdue := (atomicWriteDue_iff s).2 ⟨⟨a, old, new, clamped, ha, hp⟩, hm, hlen⟩
      rw [hd] at hdue
      cases hdue

/-! ### What failed judgements leave alone -/

/-- Failed judgements reach the grantee's queue, watch, episode, COND_FAIL and loss record, and the links. -/
structure OnlyFails (s u : State) : Prop where
  frame : u = { s with ports := u.ports, links := u.links }
  port : ∀ r : Port, (u.port r).granted = (s.port r).granted ∧ (u.port r).slack = (s.port r).slack
  other : ∀ r : Port, s.sched.grantee ≠ some r → u.port r = s.port r

theorem onlyFails_of_fails {s u : State} (h : Fails s u) : OnlyFails s u := by
  cases h with
  | failed p e v hc _ =>
    refine ⟨rfl, fun r => ?_, fun r hr => ?_⟩
    · unfold afterFailure
      dsimp only
      rw [setLinks_port, port_setPort]
      split
      · next h =>
        subst h
        exact ⟨rfl, rfl⟩
      · exact ⟨rfl, rfl⟩
    · have hne : r ≠ p := fun h => hr (h ▸ hc.grantee)
      unfold afterFailure
      dsimp only
      rw [setLinks_port, port_setPort_ne _ _ hne]

theorem onlyFails_of_failsAll {s u : State} (h : Relation.ReflTransGen Fails s u) : OnlyFails s u := by
  induction h with
  | refl => exact ⟨rfl, fun _ => ⟨rfl, rfl⟩, fun _ _ => rfl⟩
  | tail _ hf ih =>
    obtain ⟨hframe, hport, hother⟩ := onlyFails_of_fails hf
    obtain ⟨iframe, iport, iother⟩ := ih
    refine ⟨?_, fun r => ⟨(hport r).1.trans (iport r).1, (hport r).2.trans (iport r).2⟩, fun r hr => ?_⟩
    · rw [hframe, iframe]
    · refine (hother r ?_).trans (iother r hr)
      rw [iframe]
      exact hr

/-! ### What a placed beat adds -/

/-- One beat was added between u and t, as port p's. -/
structure BeatAdded (u t : State) (p : Port) : Prop where
  ready : u.mem.state = .ready
  room : u.mem.outstanding.length < 16
  sched : t.sched = u.sched
  poolSlack : t.counters.poolSlack = u.counters.poolSlack
  driven : t.memBeat.isSome = true
  beat : ∃ b : BeatRecord, t.mem.outstanding = u.mem.outstanding ++ [b] ∧ b.port = p ∧ b.deadline = deadlineAtIssue u ∧
    if b.kind = .atomicWrite then
      u.atomic.any (fun a => a.port == b.port && a.entry == b.entry && a.phase != .reading) = true
    else u.atomic = none ∧ u.sched.record.isSome = true ∧ u.sched.grantee = some b.port
  port : (t.port p).granted = (u.port p).granted + 1 ∧ (t.port p).slack = (u.port p).slack
  other : ∀ r : Port, r ≠ p →
    (t.port r).granted = (u.port r).granted ∧ (t.port r).slack = (u.port r).slack ∧ Unserved u t r

theorem BeatAdded.setAtomic {u t : State} {p : Port} (h : BeatAdded u t p) (a : Option AtomicRecord) :
    BeatAdded u (t.setAtomic a) p :=
  ⟨h.ready, h.room, h.sched, h.poolSlack, h.driven, h.beat, h.port, h.other⟩

section
variable {u v : State} {p : Port} {entry index : Nat} {kind : BeatKind} {a : Word} {bytes : Nat} {value : Option Elem}
  {f : Entry → Entry}

/-- A beat placed at v, which is u but for the atomic record, links, an overhang count and the port's COND_OK. -/
theorem beatAdded_placeBeat (hmem : v.mem = u.mem) (hset : v.settings = u.settings) (hsched : v.sched = u.sched)
    (hpool : v.counters.poolSlack = u.counters.poolSlack)
    (hself : ∃ n, v.port p = { u.port p with condOk := n }) (hother : ∀ r : Port, r ≠ p → v.port r = u.port r)
    (hready : u.mem.state = .ready) (hroom : u.mem.outstanding.length < 16)
    (hsrc : if kind = .atomicWrite then
        u.atomic.any (fun x => x.port == p && x.entry == entry && x.phase != .reading) = true
      else u.atomic = none ∧ u.sched.record.isSome = true ∧ u.sched.grantee = some p) :
    BeatAdded u (placeBeat p entry index kind a bytes value f v) p := by
  have hd : deadlineAtIssue v = deadlineAtIssue u := by
    unfold deadlineAtIssue
    rw [hset]
  have hframe := placeBeat_frame p entry index kind a bytes value f v
  refine ⟨hready, hroom, ?_, ?_, ?_, ?_, ?_, fun r hr => ?_⟩
  · rw [hframe]
    exact hsched
  · rw [hframe]
    exact hpool
  · rw [hframe]
    rfl
  · refine ⟨{ port := p, entry := entry, index := index, kind := kind, addr := a, deadline := deadlineAtIssue v,
              serial := v.nextId }, ?_, rfl, hd, hsrc⟩
    rw [hframe]
    dsimp only
    rw [hmem]
  · obtain ⟨n, hn⟩ := hself
    have hport := placeBeat_port_self p entry index kind a bytes value f v
    rw [hport, hn]
    exact ⟨rfl, rfl⟩
  · have hport := placeBeat_port_ne p entry index kind a bytes value f v hr
    rw [hother r hr] at hport
    unfold Unserved
    rw [hport]
    exact ⟨rfl, rfl, rfl, rfl, rfl, rfl, rfl⟩

end

theorem Considers.source {s : State} {p : Port} {e : Entry} (h : Considers s p e) {kind : BeatKind}
    (hk : kind ≠ .atomicWrite) {entry : Nat} :
    if kind = .atomicWrite then
      s.atomic.any (fun x => x.port == p && x.entry == entry && x.phase != .reading) = true
    else s.atomic = none ∧ s.sched.record.isSome = true ∧ s.sched.grantee = some p := by
  obtain ⟨_, _, ha⟩ := (pathFree_iff s).1 h.free
  rw [if_neg hk]
  exact ⟨ha, h.record, h.grantee⟩

theorem burstKind_ne_atomicWrite (e : Entry) : burstKind e ≠ .atomicWrite := by
  unfold burstKind
  split <;> simp

theorem linkConsumed_port_self (p : Port) (e : Entry) (s : State) :
    (linkConsumed p e s).port p = { s.port p with condOk := (s.port p).condOk + 1 } := by
  unfold linkConsumed
  rw [port_modPort_self]
  rfl

theorem linkConsumed_port_ne {p r : Port} (hr : r ≠ p) (e : Entry) (s : State) :
    (linkConsumed p e s).port r = s.port r := by
  unfold linkConsumed
  rw [port_modPort_ne _ _ hr]
  rfl

theorem beatAdded_of_places {u t : State} {p : Port} (h : Places u t p) : BeatAdded u t p := by
  cases h with
  | burst _ e hc _ =>
    obtain ⟨hm, hlen, _⟩ := (pathFree_iff u).1 hc.free
    rw [placeBurst_eq]
    exact beatAdded_placeBeat rfl rfl rfl rfl ⟨_, rfl⟩ (fun _ _ => rfl) hm hlen (hc.source (burstKind_ne_atomicWrite e))
  | linkedRead _ e hc _ =>
    obtain ⟨hm, hlen, _⟩ := (pathFree_iff u).1 hc.free
    rw [placeLinkedRead_eq]
    exact beatAdded_placeBeat rfl rfl rfl rfl ⟨_, rfl⟩ (fun _ _ => rfl) hm hlen (hc.source (by simp))
  | success _ e hc _ =>
    obtain ⟨hm, hlen, _⟩ := (pathFree_iff u).1 hc.free
    rw [judgeSuccess_eq]
    exact beatAdded_placeBeat rfl rfl rfl rfl ⟨_, linkConsumed_port_self p e u⟩
      (fun _ hr => linkConsumed_port_ne hr e u) hm hlen (hc.source (by simp))
  | atomicRead _ e hc _ =>
    obtain ⟨hm, hlen, _⟩ := (pathFree_iff u).1 hc.free
    rw [placeAtomicRead_eq hc.head]
    exact (beatAdded_placeBeat rfl rfl rfl rfl ⟨_, rfl⟩ (fun _ _ => rfl) hm hlen (hc.source (by simp))).setAtomic _
  | owed a old new clamped ha hp hm hlen =>
    unfold placeAtomicWrite
    refine beatAdded_placeBeat rfl rfl rfl rfl ⟨_, rfl⟩ (fun _ _ => rfl) hm hlen ?_
    rw [if_pos rfl, ha]
    simp [hp]

/-! ### One beat time -/

theorem newBeats_of_eq {s t : State} {new : List BeatRecord} (h : t.mem.outstanding = agedBeats s ++ new) :
    newBeats s t = new := by
  unfold newBeats
  rw [h, List.drop_append_of_le_length (by simp [agedBeats])]
  simp [agedBeats]

/-- A beat time in which the issue decision finds nothing to do. -/
theorem noBeat_beatTime {s : State} (hc : ∀ p e, ¬Considers (atDecision s) p e)
    (hd : atomicWriteDue (atDecision s) = false) : NoBeat s (beatTime s) := by
  rw [beatTime_eq, decideIssue_idle hc hd]
  exact noBeat_endBeat s

/-- The ports and counters of a beat time, by the beat that it added, if any. -/
structure BeatTimeFacts (s t : State) (new : List BeatRecord) : Prop where
  outstanding : t.mem.outstanding = agedBeats s ++ new
  atMostOne : new.length ≤ 1
  driven : new = [] ↔ t.memBeat = none
  source : ∀ b ∈ new,
    s.mem.state = .ready ∧ s.mem.outstanding.length ≤ 15 ∧ b.deadline = deadlineAtIssue s ∧
      if b.kind = .atomicWrite then
        s.atomic.any (fun a => a.port == b.port && a.entry == b.entry && a.phase != .reading) = true
      else s.atomic = none ∧ s.sched.record.isSome = true ∧ s.sched.grantee = some b.port
  ports : ∀ p : Port,
    (t.port p).granted = (s.port p).granted + (if new.any (fun b => b.port == p) then 1 else 0) ∧
      (t.port p).slack =
        (s.port p).slack +
          (if !(new.any fun b => s.sched.grantee == some b.port) && chargedPort s.sched.record == some p then 1
            else 0) ∧
      (s.sched.grantee ≠ some p → s.atomic.any (fun a => a.port == p) = false → Unserved s t p)
  poolSlack : t.counters.poolSlack =
    s.counters.poolSlack +
      (if !(new.any fun b => s.sched.grantee == some b.port) && chargedPool s.sched.record then 1 else 0)

/-- The slack that the end of a beat time charges to a port (R37). -/
theorem endBeat_slack (o : Option Port) (v : State) (p : Port) :
    ((endBeat o v).port p).slack =
      (v.port p).slack + (if !granteeIssued v o && chargedPort v.sched.record == some p then 1 else 0) := by
  rw [(endBeat_spec o v).1]
  by_cases h : granteeIssued v o = false ∧ chargedPort v.sched.record = some p
  · rw [if_pos h, if_pos (by simp [h.1, h.2])]
  · rw [if_neg h, if_neg (by simpa using h)]
    simp

theorem endBeat_poolSlack (o : Option Port) (v : State) :
    (endBeat o v).counters.poolSlack =
      v.counters.poolSlack + (if !granteeIssued v o && chargedPool v.sched.record then 1 else 0) := by
  rw [(endBeat_spec o v).2]
  dsimp only
  by_cases h : granteeIssued v o = false ∧ chargedPool v.sched.record = true
  · rw [if_pos h, if_pos (by simp [h.1, h.2])]
  · rw [if_neg h, if_neg (by simpa using h)]
    simp

theorem granteeIssued_none (v : State) : granteeIssued v none = false := rfl

theorem granteeIssued_some (v : State) (p : Port) : granteeIssued v (some p) = (v.sched.grantee == some p) := by
  unfold granteeIssued
  cases v.sched.grantee with
  | none => rfl
  | some g =>
    rw [Option.isSome_some, Bool.true_and, Bool.eq_iff_iff]
    simp only [beq_iff_eq]
    exact eq_comm

theorem granted_endBeat (o : Option Port) (v : State) (p : Port) : ((endBeat o v).port p).granted = (v.port p).granted := by
  rw [endBeat_port]

/-- The facts when no beat was placed. -/
theorem beatTimeFacts_of_none {s u : State} (hu : OnlyFails (atDecision s) u) : BeatTimeFacts s (endBeat none u) [] := by
  have hframe := hu.frame
  have hsched : u.sched = s.sched := by rw [hframe]; rfl
  have hbeat : u.memBeat = none := by rw [hframe]; rfl
  have hpool : u.counters.poolSlack = s.counters.poolSlack := by rw [hframe]; rfl
  have hout : u.mem.outstanding = agedBeats s := by rw [hframe]; rfl
  refine ⟨?_, Nat.zero_le _, ?_, by simp, fun p => ⟨?_, ?_, fun hg _ => ?_⟩, ?_⟩
  · rw [endBeat_mem, hout, List.append_nil]
  · rw [endBeat_memBeat, hbeat]
    simp
  · rw [granted_endBeat, (hu.port p).1]
    simp
  · rw [endBeat_slack, (hu.port p).2, hsched, granteeIssued_none]
    rfl
  · have hp : u.port p = s.port p := hu.other p hg
    unfold Unserved
    rw [endBeat_port, hp]
    exact ⟨rfl, rfl, rfl, rfl, rfl⟩
  · rw [endBeat_poolSlack, hpool, hsched, granteeIssued_none]
    rfl

/-- The facts when a beat was placed behind failed judgements. -/
theorem beatTimeFacts_of_some {s u t : State} {p : Port} (hu : OnlyFails (atDecision s) u) (ht : BeatAdded u t p) :
    ∃ b, BeatTimeFacts s (endBeat (some p) t) [b] := by
  have hframe := hu.frame
  have hsched : u.sched = s.sched := by rw [hframe]; rfl
  have hpool : u.counters.poolSlack = s.counters.poolSlack := by rw [hframe]; rfl
  have hout : u.mem.outstanding = agedBeats s := by rw [hframe]; rfl
  have hatomic : u.atomic = s.atomic := by rw [hframe]; rfl
  have hstate : u.mem.state = s.mem.state := by rw [hframe]; rfl
  have hdeadline : deadlineAtIssue u = deadlineAtIssue s := by rw [hframe]; rfl
  obtain ⟨hready, hroom, htsched, htpool, hdriven, ⟨b, hb, rfl, hbd, hsrc⟩, hself, hother⟩ := ht
  have hlen : (agedBeats s).length = s.mem.outstanding.length := List.length_map _
  rw [hstate] at hready
  rw [hout, hlen] at hroom
  rw [hatomic, hsched] at hsrc
  have hserved : granteeIssued t (some b.port) = (s.sched.grantee == some b.port) := by
    rw [granteeIssued_some, htsched, hsched]
  refine ⟨b, ?_, le_refl _, ?_, ?_, fun p => ⟨?_, ?_, fun hg hn => ?_⟩, ?_⟩
  · rw [endBeat_mem, hb, hout]
  · rw [endBeat_memBeat]
    obtain ⟨m, hm⟩ := Option.isSome_iff_exists.1 hdriven
    simp [hm]
  · intro c hc
    rw [List.mem_singleton.1 hc]
    exact ⟨hready, Nat.le_of_lt_succ hroom, hbd.trans hdeadline, hsrc⟩
  · rw [granted_endBeat]
    by_cases hp : p = b.port
    · subst hp
      rw [hself.1, (hu.port _).1]
      simp
    · have hne : ¬b.port = p := fun h => hp h.symm
      rw [(hother p hp).1, (hu.port p).1]
      simp [hne]
  · rw [endBeat_slack, hserved, htsched, hsched]
    have hs : (t.port p).slack = (s.port p).slack := by
      by_cases hp : p = b.port
      · subst hp
        rw [hself.2, (hu.port _).2]
        rfl
      · rw [(hother p hp).2.1, (hu.port p).2]
        rfl
    rw [hs]
    simp
  · have hp : p ≠ b.port := by
      rintro rfl
      split at hsrc
      · obtain ⟨a, ha, hx⟩ := (Option.any_eq_true _ _).1 hsrc
        simp [ha] at hn
        simp [hn] at hx
      · exact hg hsrc.2.2
    have hup : u.port p = s.port p := hu.other p hg
    have hun := (hother p hp).2.2
    unfold Unserved at hun ⊢
    rw [endBeat_port]
    rw [hup] at hun
    exact hun
  · rw [endBeat_poolSlack, htpool, hpool, hserved, htsched, hsched]
    simp

theorem beatTimeFacts (s : State) : ∃ new, BeatTimeFacts s (beatTime s) new := by
  obtain ⟨u, hu, h | ⟨t, p, ht, h⟩⟩ := decideIssue_decides (atDecision s)
  · rw [beatTime_eq, h]
    exact ⟨[], beatTimeFacts_of_none (onlyFails_of_failsAll hu)⟩
  · rw [beatTime_eq, h]
    obtain ⟨b, hb⟩ := beatTimeFacts_of_some (onlyFails_of_failsAll hu) (beatAdded_of_places ht)
    exact ⟨[b], hb⟩

/-- Without a free path no head is considered, and no write goes. -/
theorem noBeat_of_blocked {s : State} (h : s.mem.state = .wedged ∨ 16 ≤ s.mem.outstanding.length) :
    NoBeat s (beatTime s) := by
  have hlen : (agedBeats s).length = s.mem.outstanding.length := List.length_map _
  have hno : ¬((atDecision s).mem.state = .ready ∧ (atDecision s).mem.outstanding.length < 16) := by
    rw [atDecision_outstanding, hlen]
    change ¬(s.mem.state = .ready ∧ _)
    rcases h with h | h
    · simp [h]
    · omega
  refine noBeat_beatTime (fun p e hc => ?_) ?_
  · obtain ⟨hm, hl, _⟩ := (pathFree_iff _).1 hc.free
    exact hno ⟨hm, hl⟩
  · rw [Bool.eq_false_iff]
    intro hd
    obtain ⟨_, hm, hl⟩ := (atomicWriteDue_iff _).1 hd
    exact hno ⟨hm, hl⟩

/-- Without an owed write only a head of the grantee, with the record empty, can do anything. -/
theorem noBeat_of_nothing_to_issue {s : State} (hw : s.atomic.any (fun a => a.phase != .reading) = false)
    (h : s.atomic ≠ none ∨ s.sched.record = none ∨ (s.sched.grantee.bind fun p => issueHead (s.port p)) = none) :
    NoBeat s (beatTime s) := by
  refine noBeat_beatTime (fun p e hc => ?_) ?_
  · obtain ⟨_, _, ha⟩ := (pathFree_iff _).1 hc.free
    have ha' : s.atomic = none := ha
    have hrec : s.sched.record.isSome = true := hc.record
    have hg : s.sched.grantee = some p := hc.grantee
    have hh : issueHead (s.port p) = some e := hc.head
    rcases h with h | h | h
    · exact h ha'
    · simp [h] at hrec
    · simp [hg, hh] at h
  · rw [Bool.eq_false_iff]
    intro hd
    obtain ⟨⟨a, old, new, clamped, ha, hp⟩, _⟩ := (atomicWriteDue_iff _).1 hd
    have ha' : s.atomic = some a := ha
    simp [ha', hp] at hw

/-- Settles O30: the decision is failed judgements and at most one placed beat, and the end of the beat time charges what
was not served. -/
theorem oneBeatTime : Obligations.OneBeatTime := by
  intro s hpass
  obtain ⟨new, hf⟩ := beatTimeFacts s
  have hnew := newBeats_of_eq hf.outstanding
  refine completes_beatTime hpass ?_
  rw [hnew]
  refine ⟨beatTime_frame s, hf.outstanding, hf.atMostOne, hf.driven, hf.source, noBeat_of_blocked,
    noBeat_of_nothing_to_issue, hf.ports, hf.poolSlack, ?_, ?_⟩
  · rw [beatTime_sched]
  · rw [beatTime_sched]

/-! ### The links on the granule of a write beat -/

theorem mem_of_mem_withDrops {p : Port} {q : List Entry} {links : List Link} {l : Link} (h : l ∈ withDrops p q links) :
    l ∈ links := by
  unfold withDrops at h
  split at h
  · exact List.mem_of_mem_filter h
  · exact h

/-- A write beat drives its address, and no link stands on its granule behind it (R69, R86, R100). -/
def Cleared (u t : State) : Prop :=
  ∀ b, t.memBeat = some b → b.write = true → ∀ l ∈ t.links, l.base ≠ granuleBase u.settings.granule b.addr

section
variable {u v : State} {p : Port} {entry index : Nat} {kind : BeatKind} {a : Word} {bytes : Nat} {value : Option Elem}
  {f : Entry → Entry}

theorem cleared_placeBeat_write (hset : v.settings = u.settings) (h : ActsAsWrite p kind a v) :
    Cleared u (placeBeat p entry index kind a bytes value f v) := by
  obtain ⟨hlinks, _⟩ := placeBeat_writeActs p entry index kind a bytes value f v h
  intro b hb _ l hl
  rw [placeBeat_frame] at hb
  cases hb
  rw [hlinks] at hl
  obtain ⟨_, hbase⟩ := List.mem_filter.1 (mem_of_mem_withDrops hl)
  rw [← hset]
  simpa using hbase

/-- A beat without an element writes nothing. -/
theorem cleared_placeBeat_read (h : value = none) : Cleared u (placeBeat p entry index kind a bytes value f v) := by
  intro b hb hw
  rw [placeBeat_frame, h] at hb
  cases hb
  cases hw

end

theorem cleared_of_places {u t : State} {p : Port} (h : Places u t p) : Cleared u t := by
  cases h with
  | burst _ e _ hk =>
    rw [placeBurst_eq]
    rcases hk with hk | hk
    · exact cleared_placeBeat_read (if_neg (by simp [hk]))
    · exact cleared_placeBeat_write rfl (.inl (if_pos hk))
  | linkedRead _ e _ _ =>
    rw [placeLinkedRead_eq]
    exact cleared_placeBeat_read rfl
  | success _ e _ _ =>
    rw [judgeSuccess_eq]
    exact cleared_placeBeat_write rfl (.inr (.inr ⟨rfl, noOwnLink_linkConsumed p e u⟩))
  | atomicRead _ e hc _ =>
    rw [placeAtomicRead_eq hc.head]
    exact cleared_placeBeat_read rfl
  | owed a _ _ _ _ _ _ _ =>
    unfold placeAtomicWrite
    exact cleared_placeBeat_write rfl (.inr (.inl rfl))

/-- After a beat time with a write beat no link stands on its granule. -/
theorem cleared_beatTime (s : State) : Cleared s (beatTime s) := by
  obtain ⟨u, hu, h | ⟨t, p, ht, h⟩⟩ := decideIssue_decides (atDecision s)
  · intro b hb
    have hframe := (onlyFails_of_failsAll hu).frame
    rw [beatTime_eq, h, endBeat_memBeat, hframe] at hb
    cases hb
  · have hset : u.settings = s.settings := by
      rw [(onlyFails_of_failsAll hu).frame]
      rfl
    have hc := cleared_of_places ht
    unfold Cleared at hc ⊢
    rw [beatTime_eq, h, endBeat_memBeat, endBeat_links, ← hset]
    exact hc

/-- A granule base is the address rounded down, and fits the word (R58). -/
theorem granuleBase_toNat (granule : Nat) (a : Word) : (granuleBase granule a).toNat = a.toNat / granule * granule := by
  unfold granuleBase
  rw [BitVec.toNat_ofNat]
  exact Nat.mod_eq_of_lt (lt_of_le_of_lt (Nat.div_mul_le_self _ _) a.isLt)

/-- Settles O37: the placed write beat closes every link on its granule, and what follows in the beat time opens none; the
granule base is the address rounded down. -/
theorem writeBeatLeavesNoLinkOnItsGranule : Obligations.WriteBeatLeavesNoLinkOnItsGranule := by
  refine ⟨fun s t b hpass he hb hw => ?_, fun granule a hg => ?_⟩
  · rw [exec_issueDecision_of_beatCanPass hpass] at he
    cases he
    exact cleared_beatTime s b hb hw
  · have hpos : 0 < granule := by rcases hg with rfl | rfl | rfl <;> decide
    rw [granuleBase_toNat]
    refine ⟨Nat.dvd_mul_left _ _, Nat.div_mul_le_self _ _, ?_⟩
    have hmod := Nat.mod_lt a.toNat hpos
    have hdiv := Nat.div_add_mod' a.toNat granule
    omega

end Sys2Proof.Proofs
end

section
/-! PROOF. The laws of the memory path (R24, R40, R41, R106, R133, R134, R138, R139, R145). -/

namespace Sys2Proof.Proofs

open Sys2Proof Sys2Proof.Machine Sys2Proof.Safety

/-! ### What a beat time keeps -/

/-- What a failed judgement, a placed beat and the end of a beat time keep, a beat time keeps. -/
theorem beatTime_keeps {P : State → Prop} {s : State} (hf : ∀ u v, Fails u v → P u → P v)
    (hp : ∀ u t p, Places u t p → P u → P t) (he : ∀ o v, P v → P (endBeat o v)) (hs : P (atDecision s)) :
    P (beatTime s) := by
  obtain ⟨u, hu, hcases⟩ := decideIssue_decides (atDecision s)
  have hPu : P u := by
    clear hcases
    induction hu with
    | refl => exact hs
    | tail _ h ih => exact hf _ _ h ih
  rw [beatTime_eq]
  rcases hcases with h | ⟨t, p, ht, h⟩
  · rw [h]
    exact he _ _ hPu
  · rw [h]
    exact he _ _ (hp u t p ht hPu)

/-! ### The laws of the memory port and the atomic record, without the slot -/

/-- The memory port and the atomic record (R106, R134, R138, R139). -/
abbrev MemOk (m : MemPort) (a : Option AtomicRecord) : Prop :=
  m.outstanding.length ≤ 16 ∧ m.owed ≤ 16 ∧ (m.state = .ready → m.owed = 0) ∧
    (m.state = .wedged → m.outstanding = [] ∧ a = none) ∧ atomicHold m a = true

theorem memOk_of_pathInv {s : State} (h : PathInv s) : MemOk s.mem s.atomic := by
  obtain ⟨_, hlen, howed, hready, hwedged, hhold, _⟩ := h
  exact ⟨hlen, howed, hready, hwedged, hhold⟩

/-- The atomic hold does not depend on the overhang (R106, R108). -/
theorem atomicHold_overhang (m : MemPort) (a : Option AtomicRecord) :
    atomicHold m (a.map fun a => { a with overhanging := true }) = atomicHold m a := by
  cases a <;> rfl

theorem memOk_slotClosed {s : State} (h : MemOk s.mem s.atomic) : MemOk (slotClosed s).mem (slotClosed s).atomic := by
  obtain ⟨hlen, howed, hready, hwedged, hhold⟩ := h
  refine ⟨hlen, howed, hready, fun hw => ?_, ?_⟩
  · obtain ⟨ho, ha⟩ := hwedged hw
    refine ⟨ho, ?_⟩
    change s.atomic.map _ = none
    rw [ha]
    rfl
  · exact (atomicHold_overhang _ _).trans hhold

/-- Without a slot the window is closed and MAINT_GRANT not asserted (R145). -/
theorem no_window_of_no_slot {s : State} (h : PathInv s) (hrec : s.sched.record = none) :
    s.mem.quietOpen = false ∧ s.mem.maintGrant = false := by
  obtain ⟨_, _, _, _, _, _, hq, _, hg⟩ := h
  have hclosed : s.mem.quietOpen = false := by rw [hq, hrec]; rfl
  refine ⟨hclosed, ?_⟩
  rw [Bool.eq_false_iff]
  intro hm
  rw [(hg hm).1] at hclosed
  cases hclosed

/-- A state without a slot keeps the laws. -/
theorem pathInv_of_no_slot {t : State} (hm : MemOk t.mem t.atomic) (hq : t.mem.quietOpen = false)
    (hg : t.mem.maintGrant = false) (hrec : t.sched.record = none) : PathInv t := by
  obtain ⟨hlen, howed, hready, hwedged, hhold⟩ := hm
  exact ⟨fun _ => hrec, hlen, howed, hready, hwedged, hhold, by rw [hq, hrec]; rfl, fun h => by simp [hq] at h,
    fun h => by simp [hg] at h⟩

/-- A slot that starts with MAINT_GRANT not asserted keeps the laws (R24, R145). -/
theorem pathInv_of_slot {s t : State} {r : SlotRecord} (hm : MemOk s.mem s.atomic) (hg : s.mem.maintGrant = false)
    (hst : t.sched.state ≠ .stopped ∧ t.sched.state ≠ .gap) (hr : t.resetAsserted = false)
    (hrec : t.sched.record = some r) (hquiet : r.isQuiet = true → t.sched.grantee = none) (hw : WindowAtStart s t r)
    (hmem : t.mem.outstanding = s.mem.outstanding ∧ t.mem.owed = s.mem.owed ∧ t.mem.state = s.mem.state)
    (ha : t.atomic = s.atomic) : PathInv t := by
  obtain ⟨hlen, howed, hready, hwedged, hhold⟩ := hm
  obtain ⟨hopen, hgrant, hgiven, _⟩ := hw
  obtain ⟨hmo, hmw, hms⟩ := hmem
  have hhold' : atomicHold t.mem t.atomic = true := by
    unfold atomicHold at hhold ⊢
    rw [ha, hmo]
    exact hhold
  refine ⟨fun h => ?_, hmo ▸ hlen, hmw ▸ howed, by rwa [hms, hmw], by rwa [hms, hmo, ha], hhold', ?_, fun h => ?_,
    fun h => ?_⟩
  · rcases h with h | h | h
    · exact absurd h hst.1
    · exact absurd h hst.2
    · simp [hr] at h
  · rw [hopen, hrec]
    rfl
  · rw [hopen] at h
    exact hquiet h
  · rw [hgrant, hg, Bool.false_or] at h
    have hdue := h
    simp only [Bool.and_eq_true, Bool.not_eq_true', List.isEmpty_iff, Option.isNone_iff_eq_none] at h
    obtain ⟨⟨⟨⟨hq, _⟩, _⟩, ho⟩, hn⟩ := h
    refine ⟨by rw [hopen, hq], ?_, by rw [hmo, ho], by rw [ha, hn]⟩
    rw [hgiven, if_pos hq, hg]
    exact hdue

theorem pathInv_of_slotStarted {v t : State} {i : Fin 32} (h : SlotStarted v t i) (hm : MemOk v.mem v.atomic)
    (hg : v.mem.maintGrant = false) (hst : v.sched.state ≠ .stopped ∧ v.sched.state ≠ .gap)
    (hr : v.resetAsserted = false) : PathInv t := by
  dsimp only [SlotStarted] at h
  obtain ⟨hgr, hw, ht⟩ := h
  refine pathInv_of_slot hm hg ?_ ?_ ?_ (granted_quiet hgr) hw ?_ ?_
  · rw [ht]
    exact hst
  · rw [ht]
    exact hr
  · rw [ht]
  · rw [ht]
    exact ⟨rfl, rfl, rfl⟩
  · rw [ht]

theorem pathInv_of_frameStarted {s t : State} (h : FrameStarted s t) (hm : MemOk s.mem s.atomic)
    (hg : s.mem.maintGrant = false) (hr : s.resetAsserted = false) : PathInv t := by
  dsimp only [FrameStarted] at h
  obtain ⟨_, hgr, hw, _, _, _, ht⟩ := h
  refine pathInv_of_slot hm hg ?_ ?_ ?_ (granted_quiet hgr) hw ?_ ?_
  · rw [ht]
    exact ⟨by simp, by simp⟩
  · rw [ht]
    exact hr
  · rw [ht]
  · rw [ht]
    exact ⟨rfl, rfl, rfl⟩
  · rw [ht]

/-! ### MAINT_GRANT and the congruence -/

theorem pathInv_of_windowAfter {u t : State} (h : WindowAfter u t) (hu : PathInv u) : PathInv t := by
  obtain ⟨hslot, hlen, howed, hready, hwedged, hhold, hq, hqg, hg⟩ := hu
  dsimp only [WindowAfter] at h
  rw [h]
  refine ⟨hslot, hlen, howed, hready, hwedged, hhold, hq, hqg, fun hm => ?_⟩
  change (_ || _) = true at hm
  rw [Bool.or_eq_true] at hm
  rcases hm with hm | hm
  · obtain ⟨h1, h2, h3, h4⟩ := hg hm
    refine ⟨h1, ?_, h3, h4⟩
    change (u.mem.windowGiven || _) = true
    rw [h2, Bool.true_or]
  · have hm' := hm
    simp only [Bool.and_eq_true, Bool.not_eq_true', List.isEmpty_iff, Option.isNone_iff_eq_none] at hm'
    obtain ⟨⟨⟨⟨⟨h1, _⟩, _⟩, h3⟩, h4⟩, _⟩ := hm'
    refine ⟨h1, ?_, h3, h4⟩
    change (_ || _) = true
    rw [hm, Bool.or_true]

theorem pathInv_congr {s t : State} (hr : t.resetAsserted = s.resetAsserted) (hst : t.sched.state = s.sched.state)
    (hrec : t.sched.record = s.sched.record) (hg : t.sched.grantee = s.sched.grantee) (hm : t.mem = s.mem)
    (ha : t.atomic = s.atomic) (hs : PathInv s) : PathInv t := by
  unfold PathInv
  rw [hr, hst, hrec, hg, hm, ha]
  exact hs

/-! ### A beat time -/

/-- With a head considered, or a write owed, MAINT_GRANT is not asserted: the window has no grantee, and the grant asks for
an empty record (R24, R145). -/
theorem maintGrant_of_grantee {u : State} (hu : PathInv u) (h : u.sched.grantee ≠ none ∨ u.atomic ≠ none) :
    u.mem.maintGrant = false := by
  obtain ⟨_, _, _, _, _, _, _, hqg, hg⟩ := hu
  rw [Bool.eq_false_iff]
  intro hm
  obtain ⟨hopen, _, _, ha⟩ := hg hm
  rcases h with h | h
  · exact h (hqg hopen)
  · exact h ha

/-- A beat appended to the list keeps the laws, if the atomic hold stands behind it. -/
theorem pathInv_of_beat {u t : State} {b : BeatRecord} (hu : PathInv u)
    (hm : t.mem = { u.mem with outstanding := u.mem.outstanding ++ [b] }) (hsched : t.sched = u.sched)
    (hr : t.resetAsserted = u.resetAsserted) (hready : u.mem.state = .ready) (hroom : u.mem.outstanding.length < 16)
    (hhold : atomicHold t.mem t.atomic = true) (hgrant : u.mem.maintGrant = false) : PathInv t := by
  obtain ⟨hslot, _, howed, hrd, _, _, hq, hqg, _⟩ := hu
  refine ⟨?_, ?_, ?_, ?_, fun h => ?_, hhold, ?_, ?_, fun h => ?_⟩
  · rw [hsched, hr]
    exact hslot
  · rw [hm]
    simpa using hroom
  · rw [hm]
    exact howed
  · rw [hm]
    exact hrd
  · rw [hm] at h
    rw [hready] at h
    cases h
  · rw [hm, hsched]
    exact hq
  · rw [hm, hsched]
    exact hqg
  · rw [hm] at h
    change u.mem.maintGrant = true at h
    rw [hgrant] at h
    cases h

/-- An empty record with a beat that is no atomic read beat (R106). -/
theorem atomicHold_append_of_none {m : MemPort} {b : BeatRecord} (h : atomicHold m none = true)
    (hb : b.kind ≠ .atomicRead) : atomicHold { m with outstanding := m.outstanding ++ [b] } none = true := by
  unfold atomicHold at h ⊢
  dsimp only at h ⊢
  rw [List.all_append, h]
  simpa using hb

/-- A record in READING with its read beat the youngest (R105, R106). -/
theorem atomicHold_append_of_reading {m : MemPort} {b : BeatRecord} {a : AtomicRecord} (h : atomicHold m none = true)
    (hb : b.kind = .atomicRead) (ha : a.phase = .reading) :
    atomicHold { m with outstanding := m.outstanding ++ [b] } (some a) = true := by
  unfold atomicHold at h ⊢
  dsimp only at h ⊢
  rw [ha]
  dsimp only
  rw [List.getLast?_concat, List.dropLast_concat, h, Option.any_some, hb]
  rfl

theorem atomicHold_of_free {u : State} (hu : PathInv u) (ha : u.atomic = none) : atomicHold u.mem none = true := by
  obtain ⟨_, _, _, _, _, hhold, _⟩ := hu
  rwa [ha] at hhold

section
variable {u v : State} {p : Port} {e : Entry} {entry index : Nat} {kind : BeatKind} {a : Word} {bytes : Nat}
  {value : Option Elem} {f : Entry → Entry}

/-- A placed beat of a head that is considered, with the record left empty. -/
theorem pathInv_placeBeat (hu : PathInv u) (hc : Considers u p e) (hk : kind ≠ .atomicRead) (hmem : v.mem = u.mem)
    (hsched : v.sched = u.sched) (hr : v.resetAsserted = u.resetAsserted) (hatomic : v.atomic = u.atomic) :
    PathInv (placeBeat p entry index kind a bytes value f v) := by
  obtain ⟨hready, hroom, ha⟩ := (pathFree_iff u).1 hc.free
  have hgrant := maintGrant_of_grantee hu (.inl (by simp [hc.grantee]))
  have hframe := placeBeat_frame p entry index kind a bytes value f v
  have hm : (placeBeat p entry index kind a bytes value f v).mem = { u.mem with
      outstanding := u.mem.outstanding ++
        [{ port := p, entry := entry, index := index, kind := kind, addr := a, deadline := deadlineAtIssue v,
           serial := v.nextId }] } := by
    rw [hframe]
    dsimp only
    rw [hmem]
  refine pathInv_of_beat hu hm ?_ ?_ hready hroom ?_ hgrant
  · rw [hframe]
    exact hsched
  · rw [hframe]
    exact hr
  · have hat : (placeBeat p entry index kind a bytes value f v).atomic = none := by
      rw [hframe]
      exact hatomic.trans ha
    rw [hm, hat]
    exact atomicHold_append_of_none (atomicHold_of_free hu ha) hk

end

theorem burstKind_ne_atomicRead (e : Entry) : burstKind e ≠ .atomicRead := by
  unfold burstKind
  split <;> simp

theorem pathInv_places {u t : State} {p : Port} (h : Places u t p) (hu : PathInv u) : PathInv t := by
  cases h with
  | burst _ e hc _ =>
    rw [placeBurst_eq]
    exact pathInv_placeBeat hu hc (burstKind_ne_atomicRead e) rfl rfl rfl rfl
  | linkedRead _ e hc _ =>
    rw [placeLinkedRead_eq]
    exact pathInv_placeBeat hu hc (by simp) rfl rfl rfl rfl
  | success _ e hc _ =>
    rw [judgeSuccess_eq]
    exact pathInv_placeBeat hu hc (by simp) rfl rfl rfl rfl
  | atomicRead _ e hc _ =>
    obtain ⟨hready, hroom, ha⟩ := (pathFree_iff u).1 hc.free
    have hgrant := maintGrant_of_grantee hu (.inl (by simp [hc.grantee]))
    rw [placeAtomicRead_eq hc.head]
    have hframe := placeBeat_frame p e.id 0 .atomicRead e.req.addr 4 none afterAtomicRead u
    refine pathInv_of_beat (b := ⟨p, e.id, 0, .atomicRead, e.req.addr, deadlineAtIssue u, u.nextId⟩) hu ?_ ?_ ?_ hready hroom ?_ hgrant
    · rw [setAtomic_mem, hframe]
    · rw [setAtomic_sched, hframe]
    · rw [setAtomic_resetAsserted, hframe]
    · rw [setAtomic_mem, hframe]
      exact atomicHold_append_of_reading (atomicHold_of_free hu ha) rfl rfl
  | owed a old new clamped ha hp hm hlen =>
    have hgrant := maintGrant_of_grantee hu (.inr (by simp [ha]))
    have hframe := placeBeat_frame a.port a.entry 0 .atomicWrite a.addr 4 (some (new.setWidth 64))
      (afterAtomicWrite old clamped) (owedTaken a u)
    have hempty : u.mem.outstanding = [] := by
      obtain ⟨_, _, _, _, _, hhold, _⟩ := hu
      unfold atomicHold at hhold
      simpa [ha, hp] using hhold
    unfold placeAtomicWrite
    refine pathInv_of_beat (b := ⟨a.port, a.entry, 0, .atomicWrite, a.addr, deadlineAtIssue (owedTaken a u), u.nextId⟩)
      hu ?_ ?_ ?_ hm hlen ?_ hgrant
    · rw [hframe]
      rfl
    · rw [hframe]
      rfl
    · rw [hframe]
      rfl
    · rw [hframe]
      change atomicHold { u.mem with outstanding := u.mem.outstanding ++ _ } none = true
      unfold atomicHold
      rw [hempty]
      rfl

theorem pathInv_fails {u v : State} (h : Fails u v) (hu : PathInv u) : PathInv v := by
  cases h
  exact hu

theorem pathInv_endBeat (o : Option Port) {v : State} (hv : PathInv v) : PathInv (endBeat o v) := by
  refine pathInv_congr ?_ ?_ ?_ ?_ (endBeat_mem o v) (endBeat_atomic o v) hv <;> rw [(endBeat_spec o v).2]

theorem pathInv_atDecision {s : State} (hs : PathInv s) : PathInv (atDecision s) := by
  obtain ⟨hslot, hlen, howed, hready, hwedged, hhold, hq, hqg, hg⟩ := hs
  have hnil : s.mem.outstanding = [] → agedBeats s = [] := fun h => by rw [agedBeats, h]; rfl
  refine ⟨hslot, ?_, howed, hready, fun h => ⟨hnil (hwedged h).1, (hwedged h).2⟩, ?_, hq, hqg, fun h => ?_⟩
  · rw [atDecision_outstanding, agedBeats, List.length_map]
    exact hlen
  · unfold atomicHold at hhold ⊢
    rw [atDecision_outstanding, atDecision_atomic, agedBeats, List.all_map, List.getLast?_map,
      ← List.map_dropLast, List.all_map, List.isEmpty_map, Option.any_map]
    exact hhold
  · obtain ⟨h1, h2, h3, h4⟩ := hg h
    exact ⟨h1, h2, hnil h3, h4⟩

theorem pathInv_beatTime {s : State} (hs : PathInv s) : PathInv (beatTime s) :=
  beatTime_keeps (fun _ _ h hu => pathInv_fails h hu) (fun _ _ _ h hu => pathInv_places h hu)
    (fun o _ hv => pathInv_endBeat o hv) (pathInv_atDecision hs)

/-! ### Frames -/

theorem pathInv_of_markTaken {s u : State} (h : MarkTaken s u) (hs : PathInv s) : PathInv u := by
  dsimp only [MarkTaken] at h
  obtain ⟨_, _, _, hu⟩ := h
  rw [hu]
  exact hs

theorem beatTime_record {s u : State} (h : MarkTaken s u) : (beatTime u).sched.record = s.sched.record ∧
    (beatTime u).resetAsserted = s.resetAsserted := by
  dsimp only [MarkTaken] at h
  obtain ⟨_, _, _, hu⟩ := h
  rw [beatTime_sched, beatTime_resetAsserted, hu]
  exact ⟨rfl, rfl⟩

theorem pathInv_gapMarkFirst {s : State} (h : gapMarkFirstDue s = true) (hs : PathInv s) : PathInv (gapMarkFirst s) := by
  obtain ⟨u, hu, ht⟩ := gapMarkFirst_spec s
  obtain ⟨hpass, hgap, _⟩ := (gapMarkFirstDue_iff s).1 h
  have hb := pathInv_beatTime (pathInv_of_markTaken hu hs)
  obtain ⟨hrec, hr⟩ := beatTime_record hu
  have hnone : s.sched.record = none := hs.1 (.inr (.inl hgap))
  obtain ⟨_, hg⟩ := no_window_of_no_slot hb (hrec.trans hnone)
  have hm := memOk_of_pathInv hb
  exact pathInv_of_slotStarted ht hm hg ⟨by simp, by simp⟩ (hr.trans (not_reset_of_beatCanPass hpass))

theorem pathInv_markFirst {s : State} (h : markFirstDue s = true) (hs : PathInv s) : PathInv (markFirst s) := by
  obtain ⟨u, hu, ht⟩ := markFirst_spec s
  obtain ⟨hpass, _⟩ := (markFirstDue_iff s).1 h
  have hb := pathInv_beatTime (pathInv_of_markTaken hu hs)
  obtain ⟨_, hr⟩ := beatTime_record hu
  have hm := memOk_slotClosed (memOk_of_pathInv hb)
  exact pathInv_of_slotStarted ht hm rfl ⟨by simp, by simp⟩ (hr.trans (not_reset_of_beatCanPass hpass))

theorem pathInv_endSlot {s : State} (h : slotEndDue s = true) (hs : PathInv s) : PathInv (endSlot s) := by
  obtain ⟨hr, hrec, _⟩ := (slotEndDue_iff s).1 h
  have hm := memOk_slotClosed (memOk_of_pathInv hs)
  have hst : s.sched.state ≠ .stopped ∧ s.sched.state ≠ .gap := by
    constructor
    · intro hst
      simp [hs.1 (.inl hst)] at hrec
    · intro hst
      simp [hs.1 (.inr (.inl hst))] at hrec
  rcases endSlot_cases s with ⟨_, he⟩ | ⟨_, _, he⟩ | ⟨_, _, _, he⟩ | ⟨_, _, _, he⟩
  · rw [he]
    exact pathInv_of_no_slot hm rfl rfl rfl
  · exact pathInv_of_slotStarted he hm rfl hst hr
  · exact pathInv_of_frameStarted he hm rfl hr
  · rw [he]
    exact pathInv_of_no_slot hm rfl rfl rfl

/-! ### Responses and the wedge -/

/-- An atomic read beat that is the oldest outstanding is the only one, and the record is in READING (R106). -/
theorem atomicRead_alone {s : State} {b : BeatRecord} {rest : List BeatRecord} (hs : PathInv s)
    (ho : s.mem.outstanding = b :: rest) (hk : b.kind = .atomicRead) : rest = [] ∧ s.atomic ≠ none := by
  obtain ⟨_, _, _, _, _, hhold, _⟩ := hs
  unfold atomicHold at hhold
  rw [ho] at hhold
  cases ha : s.atomic with
  | none => simp [ha, hk] at hhold
  | some a =>
    refine ⟨?_, by simp⟩
    cases hp : a.phase with
    | writeOwed _ _ _ => simp [ha, hp] at hhold
    | reading =>
      cases rest with
      | nil => rfl
      | cons c rest => simp [ha, hp, hk] at hhold

/-- The atomic hold behind the oldest beat, if it is no atomic read beat (R106). -/
theorem atomicHold_tail {m : MemPort} {a : Option AtomicRecord} {b : BeatRecord} {rest : List BeatRecord}
    (h : atomicHold m a = true) (ho : m.outstanding = b :: rest) (hk : b.kind ≠ .atomicRead) :
    atomicHold { m with outstanding := rest } a = true := by
  unfold atomicHold at h ⊢
  rw [ho] at h
  cases a with
  | none =>
    simp only [List.all_cons, Bool.and_eq_true] at h
    exact h.2
  | some a =>
    cases hp : a.phase with
    | writeOwed _ _ _ => simp [hp] at h
    | reading =>
      cases rest with
      | nil => simp [hp, hk] at h
      | cons c rest =>
        simp only [hp, List.getLast?_cons_cons, List.dropLast_cons_cons, List.all_cons, Bool.and_eq_true] at h ⊢
        exact ⟨h.1, h.2.2⟩

theorem maintGrant_of_outstanding {s : State} {b : BeatRecord} {rest : List BeatRecord} (hs : PathInv s)
    (ho : s.mem.outstanding = b :: rest) : s.mem.maintGrant = false := by
  obtain ⟨_, _, _, _, _, _, _, _, hg⟩ := hs
  rw [Bool.eq_false_iff]
  intro hm
  obtain ⟨_, _, hnil, _⟩ := hg hm
  rw [ho] at hnil
  cases hnil

/-- The oldest beat leaves the list: the laws stand if the hold does, for any atomic record; READY is what it was. -/
theorem pathInv_of_tail {s t : State} {b : BeatRecord} {rest : List BeatRecord} (hs : PathInv s)
    (ho : s.mem.outstanding = b :: rest) (hm : t.mem = { s.mem with outstanding := rest }) (hsched : t.sched = s.sched)
    (hr : t.resetAsserted = s.resetAsserted) (hhold : atomicHold t.mem t.atomic = true) : PathInv t := by
  have hgrant := maintGrant_of_outstanding hs ho
  obtain ⟨hslot, hlen, howed, hready, hwedged, _, hq, hqg, _⟩ := hs
  rw [ho, List.length_cons] at hlen
  refine ⟨?_, ?_, ?_, ?_, fun h => ?_, hhold, ?_, ?_, fun h => ?_⟩
  · rw [hsched, hr]
    exact hslot
  · rw [hm]
    exact Nat.le_of_succ_le hlen
  · rw [hm]
    exact howed
  · rw [hm]
    exact hready
  · rw [hm] at h
    have hnil := (hwedged h).1
    rw [ho] at hnil
    cases hnil
  · rw [hm, hsched]
    exact hq
  · rw [hm, hsched]
    exact hqg
  · rw [hm] at h
    change s.mem.maintGrant = true at h
    rw [hgrant] at h
    cases h

theorem pathInv_takeResponse (status : MemStatus) (element : Elem) {s : State} (hs : PathInv s) :
    PathInv (takeResponse status element s) := by
  have ht := takeResponse_taken status element s
  generalize takeResponse status element s = t at ht ⊢
  cases ht with
  | discarded => exact hs
  | owed ho =>
    obtain ⟨hslot, hlen, howed, hready, hwedged, hhold, hq, hqg, hg⟩ := hs
    refine ⟨hslot, hlen, Nat.le_trans (Nat.sub_le _ _) howed, fun h => ?_, hwedged, hhold, hq, hqg, hg⟩
    change s.mem.owed - 1 = 0
    rw [hready h]
  | stray _ _ => exact hs
  | matched b rest bad element ho hk =>
    have hhold := (memOk_of_pathInv hs).2.2.2.2
    refine pathInv_of_windowAfter (grantMaint_spec _) (pathInv_of_tail hs ho rfl rfl rfl ?_)
    exact atomicHold_tail hhold ho hk
  | answered b rest a old new clamped ho hk ha =>
    obtain ⟨rfl, _⟩ := atomicRead_alone hs ho hk
    exact pathInv_of_tail hs ho rfl rfl rfl rfl
  | unclaimed b rest ho hk ha => exact absurd ha (atomicRead_alone hs ho hk).2
  | failed b rest ho hk =>
    obtain ⟨rfl, _⟩ := atomicRead_alone hs ho hk
    exact pathInv_of_windowAfter (grantMaint_spec _) (pathInv_of_tail hs ho rfl rfl rfl rfl)

theorem pathInv_takeWedge {s : State} (hs : PathInv s) : PathInv (takeWedge s) := by
  obtain ⟨hslot, hlen, _, _, _, _, hq, hqg, hg⟩ := hs
  refine pathInv_of_windowAfter (takeWedge_spec s).2 ?_
  refine ⟨hslot, Nat.zero_le _, hlen, fun h => by simp at h, fun _ => ⟨rfl, rfl⟩, rfl, hq, hqg, fun h => ?_⟩
  obtain ⟨h1, h2, _, _⟩ := hg h
  exact ⟨h1, h2, rfl, rfl⟩

/-! ### Every happening -/

theorem pathInv_pinReset (s : State) : PathInv (pinReset s) :=
  ⟨fun _ => rfl, Nat.zero_le _, Nat.zero_le _, fun _ => rfl, fun _ => ⟨rfl, rfl⟩, rfl, rfl, fun _ => rfl,
    fun h => Bool.noConfusion h⟩

/-- A frame that starts where no slot exists. -/
theorem pathInv_frameStart_of_no_slot {s u : State} (hs : PathInv s) (hrec : s.sched.record = none) (hm : u.mem = s.mem)
    (ha : u.atomic = s.atomic) (hr : u.resetAsserted = false) : PathInv (frameStart u) := by
  obtain ⟨_, hg⟩ := no_window_of_no_slot hs hrec
  have hok : MemOk u.mem u.atomic := by
    rw [hm, ha]
    exact memOk_of_pathInv hs
  exact pathInv_of_frameStarted (frameStart_spec u) hok (by rw [hm, hg]) hr

theorem pathInv_settingWritten {number : Nat} {value : Half} {s : State} (hr : s.resetAsserted = false)
    (hs : PathInv s) : PathInv (settingWritten number value s) := by
  rcases settingWritten_cases number value s with ⟨_, hg, _, h⟩ | ⟨_, _, h⟩ | ⟨_, _, h⟩ | ⟨_, _, h⟩ | ⟨_, h⟩ |
    ⟨_, _, _, _, h⟩
  · rw [h]
    exact pathInv_frameStart_of_no_slot hs (hs.1 (.inr (.inl hg))) rfl rfl hr
  all_goals
    rw [h]
    exact hs

theorem pathInv_act {s t : State} (h : Act s t) (hs : PathInv s) : PathInv t := by
  cases h with
  | framed _ | counted _ | raised _ | line _ _ | presented _ _ | maintReq _ | enable _ | purgePort _ | purgeAll
  | noticeTaken | cleared | shadow _ _ _ | swap _ _ | commit _ | cancel => exact hs
  | firstFrame hr => exact pathInv_frameStart_of_no_slot hs (hs.1 (.inr (.inr hr))) rfl rfl rfl
  | frameStart hr hst =>
    exact pathInv_frameStart_of_no_slot hs (hs.1 (hst.elim (fun h => .inr (.inl h)) .inl)) rfl rfl hr
  | gapMarkFirst hd => exact pathInv_gapMarkFirst hd hs
  | slotEnd hd => exact pathInv_endSlot hd hs
  | markFirst hd => exact pathInv_markFirst hd hs
  | beat _ => exact pathInv_beatTime hs
  | response status element => exact pathInv_takeResponse status element hs
  | wedge _ => exact pathInv_takeWedge hs
  | recovery _ =>
    obtain ⟨hslot, hlen, _, _, _, hhold, hq, hqg, hg⟩ := hs
    exact ⟨hslot, hlen, Nat.zero_le _, fun _ => rfl, fun h => MemState.noConfusion h, hhold, hq, hqg, hg⟩
  | maintGrant => exact pathInv_of_windowAfter (grantMaint_spec s) hs
  | setting number value hr _ => exact pathInv_settingWritten hr hs
  | enterGap _ hst _ =>
    obtain ⟨hq, hg⟩ := no_window_of_no_slot hs (hs.1 (.inl hst))
    have hm := memOk_of_pathInv hs
    exact pathInv_of_no_slot hm hq hg rfl
  | drain hr hst =>
    obtain ⟨_, hrest⟩ := hs
    refine ⟨fun h => ?_, hrest⟩
    rcases h with h | h | h
    · cases h
    · cases h
    · rw [setSched_resetAsserted, hr] at h
      cases h
  | enterStopped _ hst =>
    obtain ⟨hq, hg⟩ := no_window_of_no_slot hs (hs.1 (.inr (.inl hst)))
    have hm := memOk_of_pathInv hs
    rw [enterStopped_spec s]
    exact pathInv_of_no_slot hm hq hg rfl
  | disable p =>
    rw [disablePort_frame]
    exact hs
  | _ => exact pathInv_congr (by simp) (by simp) (by simp) (by simp) (by simp) (by simp) hs

/-- Settles O7: beats come and go at the ends of the list as the atomic hold says, a window opens and closes with its slot,
and the wedge empties both. -/
theorem memoryPathLawsKeptByEveryStep : Obligations.MemoryPathLawsKeptByEveryStep := fun _ _ hs h =>
  step_keeps (P := PathInv) (fun _ _ ha => pathInv_act ha) (fun s _ => pathInv_pinReset s) (fun _ _ h => h) hs h

end Sys2Proof.Proofs
end

section
/-! PROOF. The laws of the ports (R93, R119, R124 to R128, R130). -/

namespace Sys2Proof.Proofs

open Sys2Proof Sys2Proof.Machine Sys2Proof.Safety

/-! ### An entry in its port, and the drops that are due -/

/-- A RESETTING port holds marked entries in PARTIAL or ISSUED only, and no other port holds a marked one (R127, R128). -/
def EntryFits (st : PortState) (e : Entry) : Prop :=
  if st = .resetting then e.marked = true ∧ (e.state = .partly ∨ e.state = .issued) else e.marked = false

theorem entryFits_resetting {st : PortState} {e : Entry} (h : st = .resetting) :
    EntryFits st e ↔ e.marked = true ∧ (e.state = .partly ∨ e.state = .issued) := by
  unfold EntryFits
  rw [if_pos h]

theorem entryFits_other {st : PortState} {e : Entry} (h : st ≠ .resetting) : EntryFits st e ↔ e.marked = false := by
  unfold EntryFits
  rw [if_neg h]

/-- A change that keeps the mark, and PARTIAL or ISSUED as one of the two. -/
theorem EntryFits.changed {st : PortState} {e e' : Entry} (h : EntryFits st e) (hm : e'.marked = e.marked)
    (hs : st = .resetting → e.state = .partly ∨ e.state = .issued → e'.state = .partly ∨ e'.state = .issued) :
    EntryFits st e' := by
  by_cases hst : st = .resetting
  · obtain ⟨h1, h2⟩ := (entryFits_resetting hst).1 h
    exact (entryFits_resetting hst).2 ⟨hm.trans h1, hs hst h2⟩
  · exact (entryFits_other hst).2 (hm.trans ((entryFits_other hst).1 h))

/-- The laws of a port, in terms of its entries. -/
theorem portOk_iff (x : PortRec) :
    PortOk x ↔ x.queue.length ≤ 4 ∧ dropDue x.queue = false ∧ (x.state = .opened → x.enabled = true) ∧
      (x.state = .halting ∨ x.state = .disabled → x.enabled = false) ∧ x.waitCounter ≤ 255 ∧
      ∀ e ∈ x.queue, EntryFits x.state e := by
  have hfits : (∀ e ∈ x.queue, EntryFits x.state e) ↔
      (x.state = .resetting → ∀ e ∈ x.queue, e.marked = true ∧ (e.state = .partly ∨ e.state = .issued)) ∧
        (x.state ≠ .resetting → ∀ e ∈ x.queue, e.marked = false) := by
    constructor
    · exact fun h => ⟨fun hs e he => (entryFits_resetting hs).1 (h e he), fun hs e he => (entryFits_other hs).1 (h e he)⟩
    · rintro ⟨h1, h2⟩ e he
      by_cases hs : x.state = .resetting
      · exact (entryFits_resetting hs).2 (h1 hs e he)
      · exact (entryFits_other hs).2 (h2 hs e he)
  rw [hfits]

theorem fits_settled {st : PortState} {q : List Entry} (h : ∀ e ∈ q, EntryFits st e) :
    ∀ e ∈ settleDrops q, EntryFits st e := by
  intro e he
  rcases mem_settleDrops he with he | ⟨d, hd, _, hw, rfl⟩
  · exact h e he
  · exact (h d hd).changed rfl fun _ hs => by simp [hw] at hs

/-- Nothing is due in a queue without a WAITING entry (R93). -/
theorem dropDue_of_none_waiting {q : List Entry} (h : ∀ e ∈ q, e.state ≠ .waiting) : dropDue q = false := by
  induction q with
  | nil => rfl
  | cons e rest ih =>
    unfold dropDue
    have he := h e (List.mem_cons_self ..)
    rw [ih fun d hd => h d (List.mem_cons_of_mem _ hd)]
    simp [he]

/-- An entry that is fully issued, appended, makes nothing due. -/
theorem dropDue_append {q : List Entry} {e : Entry} (he : e.fullyIssued = true) : dropDue (q ++ [e]) = dropDue q := by
  induction q with
  | nil => simp [dropDue, he]
  | cons d rest ih => simp only [List.cons_append, dropDue, ih]

/-- What a change of one entry must keep, for the due LINK DROPs to be those of before. -/
structure KeepsPlace (e e' : Entry) : Prop where
  issued : e'.fullyIssued = e.fullyIssued
  kind : e'.req.kind = e.req.kind
  waiting : e'.state = .waiting ↔ e.state = .waiting

theorem KeepsPlace.refl (e : Entry) : KeepsPlace e e := ⟨rfl, rfl, Iff.rfl⟩

theorem dropDue_filterMap {q : List Entry} {g : Entry → Option Entry}
    (h : ∀ e ∈ q, ∃ e', g e = some e' ∧ KeepsPlace e e') : dropDue (q.filterMap g) = dropDue q := by
  induction q with
  | nil => rfl
  | cons e rest ih =>
    obtain ⟨e', he, hk⟩ := h e (List.mem_cons_self ..)
    rw [List.filterMap_cons_some he]
    simp only [dropDue, ih fun d hd => h d (List.mem_cons_of_mem _ hd), hk.issued, hk.kind, hk.waiting]

/-! ### Changes of one port -/

theorem portOk_congr {x y : PortRec} (hq : y.queue = x.queue) (hs : y.state = x.state) (he : y.enabled = x.enabled)
    (hw : y.waitCounter ≤ 255) (hx : PortOk x) : PortOk y := by
  obtain ⟨hlen, hdue, hopen, hclosed, _, hreset, hother⟩ := hx
  unfold PortOk
  rw [hq, hs, he]
  exact ⟨hlen, hdue, hopen, hclosed, hw, hreset, hother⟩

theorem portOk_waitCounter {x : PortRec} (hx : PortOk x) : x.waitCounter ≤ 255 := by
  obtain ⟨_, _, _, _, hw, _⟩ := hx
  exact hw

theorem portOk_onlyLoss {x y : PortRec} (h : OnlyLoss x y) (hx : PortOk x) : PortOk y := by
  rw [h]
  exact hx

/-- A port of the same state with another queue. -/
theorem portOk_queue {x y : PortRec} (hx : PortOk x) (hs : y.state = x.state) (he : y.enabled = x.enabled)
    (hw : y.waitCounter = x.waitCounter) (hlen : y.queue.length ≤ 4) (hdue : dropDue y.queue = false)
    (hf : ∀ e ∈ y.queue, EntryFits x.state e) : PortOk y := by
  obtain ⟨_, _, hopen, hclosed, hwait, _⟩ := (portOk_iff x).1 hx
  rw [portOk_iff, hs, he, hw]
  exact ⟨hlen, hdue, hopen, hclosed, hwait, hf⟩

/-- A port of the same state whose queue is settled. -/
theorem portOk_settled {x y : PortRec} {q : List Entry} (hx : PortOk x) (hs : y.state = x.state)
    (he : y.enabled = x.enabled) (hw : y.waitCounter = x.waitCounter) (hq : y.queue = settleDrops q)
    (hlen : q.length ≤ 4) (hf : ∀ e ∈ q, EntryFits x.state e) : PortOk y := by
  refine portOk_queue hx hs he hw ?_ ?_ ?_
  · rwa [hq, settleDrops_length]
  · rw [hq, dropDue_settleDrops]
  · rw [hq]
    exact fits_settled hf

theorem portOk_fits {x : PortRec} (hx : PortOk x) : ∀ e ∈ x.queue, EntryFits x.state e := by
  obtain ⟨_, _, _, _, _, hf⟩ := (portOk_iff x).1 hx
  exact hf

theorem fits_changed {st : PortState} {q : List Entry} {id : Nat} {f : Entry → Entry} (h : ∀ e ∈ q, EntryFits st e)
    (hf : ∀ e ∈ q, EntryFits st e → EntryFits st (f e)) : ∀ e ∈ changed id f q, EntryFits st e := by
  intro e he
  obtain ⟨d, hd, ⟨rfl, _⟩ | ⟨rfl, _⟩⟩ := mem_changed he
  · exact hf d hd (h d hd)
  · exact h _ hd

theorem fits_filterMap {st : PortState} {q : List Entry} {g : Entry → Option Entry}
    (h : ∀ e ∈ q, EntryFits st e) (hg : ∀ e e', g e = some e' → EntryFits st e → EntryFits st e') :
    ∀ e ∈ q.filterMap g, EntryFits st e := by
  intro e he
  obtain ⟨d, hd, hde⟩ := List.mem_filterMap.1 he
  exact hg d e hde (h d hd)

theorem portsInv_of_ports {s t : State} (h : t.ports = s.ports) (hs : PortsInv s) : PortsInv t := by
  intro p
  unfold State.port
  rw [h]
  exact hs p

theorem portsInv_of_onlyLoss {s t : State} (h : ∀ p : Port, OnlyLoss (s.port p) (t.port p)) (hs : PortsInv s) :
    PortsInv t := fun p => portOk_onlyLoss (h p) (hs p)

theorem portsInv_of_port {s t : State} {p : Port} (hp : PortOk (t.port p))
    (ho : ∀ r : Port, r ≠ p → OnlyLoss (s.port r) (t.port r)) (hs : PortsInv s) : PortsInv t := by
  intro r
  by_cases hr : r = p
  · rw [hr]
    exact hp
  · exact portOk_onlyLoss (ho r hr) (hs r)

/-- A change of one port that keeps its queue, state, enable setting and wait counter. -/
theorem portsInv_modPort {s : State} {p : Port} {f : PortRec → PortRec} (h : PortOk (f (s.port p))) (hs : PortsInv s) :
    PortsInv (s.modPort p f) := by
  refine portsInv_of_port (p := p) ?_ (fun r hr => ?_) hs
  · rw [port_modPort_self]
    exact h
  · rw [port_modPort_ne s f hr]

theorem portsInv_setPort {s : State} {p : Port} {x : PortRec} (h : PortOk x) (hs : PortsInv s) :
    PortsInv (s.setPort p x) := by
  refine portsInv_of_port (p := p) ?_ (fun r hr => ?_) hs
  · rw [port_setPort_self]
    exact h
  · rw [port_setPort_ne s x hr]

theorem portsInv_takeDrops (p : Port) {s : State} (hs : PortsInv s) : PortsInv (takeDrops p s) := by
  refine portsInv_of_port (p := p) ?_ (fun r hr => ?_) hs
  · have hx := hs p
    rw [takeDrops_port, if_pos rfl]
    have hfits := portOk_fits hx
    refine portOk_settled hx (by simp) (by simp) (by simp) rfl ?_ hfits
    exact hx.1
  · rw [takeDrops_port, if_neg hr]

/-! ### A beat time -/

section
variable {u v : State} {p : Port} {entry index : Nat} {kind : BeatKind} {a : Word} {bytes : Nat} {value : Option Elem}
  {f : Entry → Entry}

/-- A placed beat changes one entry, whose mark stays, and settles the queue. -/
theorem portsInv_placeBeat (hv : PortsInv v) (hm : ∀ e, (f e).marked = e.marked)
    (hst : (v.port p).state = .resetting → ∀ e, (f e).state = .partly ∨ (f e).state = .issued) :
    PortsInv (placeBeat p entry index kind a bytes value f v) := by
  refine portsInv_of_port (p := p) ?_ (fun r hr => placeBeat_port_ne p entry index kind a bytes value f v hr) hv
  have hx := hv p
  refine portOk_onlyLoss (placeBeat_port_self p entry index kind a bytes value f v) ?_
  refine portOk_settled hx rfl rfl rfl rfl ?_ ?_
  · rw [changed_length]
    exact hx.1
  · exact fits_changed (portOk_fits hx) fun e _ he => he.changed (hm e) fun hr _ => hst hr e

end

/-- The head of a port that is considered is not that of a RESETTING port. -/
theorem Considers.not_resetting {s : State} {p : Port} {e : Entry} (h : Considers s p e) :
    (s.port p).state ≠ .resetting := by
  obtain ⟨hst, _⟩ := (issueHead_iff _ _).1 h.head
  exact hst

theorem portsInv_linkConsumed (p : Port) (e : Entry) {s : State} (hs : PortsInv s) : PortsInv (linkConsumed p e s) := by
  unfold linkConsumed
  exact portsInv_modPort (portOk_congr rfl rfl rfl (portOk_waitCounter (hs p)) (hs p)) (portsInv_of_ports rfl hs)

theorem portsInv_places {u t : State} {p : Port} (h : Places u t p) (hu : PortsInv u) : PortsInv t := by
  cases h with
  | burst _ e hc _ =>
    rw [placeBurst_eq]
    exact portsInv_placeBeat hu (fun _ => rfl) fun hr => absurd hr hc.not_resetting
  | linkedRead _ e hc _ =>
    rw [placeLinkedRead_eq]
    exact portsInv_placeBeat hu (fun _ => rfl) fun hr => absurd hr hc.not_resetting
  | success _ e hc _ =>
    rw [judgeSuccess_eq]
    refine portsInv_placeBeat (portsInv_linkConsumed p e hu) (fun _ => rfl) fun hr => ?_
    rw [linkConsumed_port_self] at hr
    exact absurd hr hc.not_resetting
  | atomicRead _ e hc _ =>
    rw [placeAtomicRead_eq hc.head]
    exact portsInv_of_ports rfl (portsInv_placeBeat hu (fun _ => rfl) fun _ _ => .inl rfl)
  | owed a old new clamped _ _ _ _ =>
    unfold placeAtomicWrite
    have hv : PortsInv (owedTaken a u) := portsInv_of_ports rfl hu
    exact portsInv_placeBeat hv (fun _ => rfl) fun _ _ => .inr rfl

theorem portsInv_fails {u v : State} (h : Fails u v) (hu : PortsInv u) : PortsInv v := by
  cases h with
  | failed p e w hc _ =>
    have hx := hu p
    refine portsInv_setPort (s := u) ?_ hu
    refine portOk_settled hx rfl rfl rfl rfl ?_ ?_
    · rw [changed_length]
      exact hx.1
    · exact fits_changed (portOk_fits hx) fun e _ he => he.changed rfl fun hr => absurd hr hc.not_resetting

theorem portsInv_beatTime {s : State} (hs : PortsInv s) : PortsInv (beatTime s) := by
  refine beatTime_keeps (P := PortsInv) (fun u v h hu => portsInv_fails h hu) (fun u t p h hu => portsInv_places h hu)
    (fun o v hv p => ?_) (portsInv_of_ports rfl hs)
  rw [endBeat_port]
  exact hv p

/-! ### Frames -/

theorem portOk_atMark {s : State} (hs : PortsInv s) (p : Port) : PortOk (portAtMark s p) := by
  have hx := hs p
  refine portOk_congr (x := s.port p) rfl rfl rfl ?_ hx
  change counterAtMark s p ≤ 255
  unfold counterAtMark
  have hw := portOk_waitCounter (hs p)
  split
  · exact hw
  · split <;> omega

theorem portsInv_of_frameStarted {s t : State} (h : FrameStarted s t) (hs : PortsInv s) : PortsInv t := by
  dsimp only [FrameStarted] at h
  obtain ⟨_, _, _, hp, _⟩ := h
  intro p
  rw [hp p]
  exact portOk_atMark hs p

theorem portsInv_frameStart {s : State} (hs : PortsInv s) : PortsInv (frameStart s) :=
  portsInv_of_frameStarted (frameStart_spec s) hs

theorem portsInv_of_markTaken {s u : State} (h : MarkTaken s u) (hs : PortsInv s) : PortsInv u := by
  dsimp only [MarkTaken] at h
  obtain ⟨hp, _⟩ := h
  intro p
  rw [hp p]
  exact portOk_atMark hs p

theorem portsInv_of_slotStarted {v t : State} {i : Fin 32} (h : SlotStarted v t i) (hv : PortsInv v) : PortsInv t := by
  dsimp only [SlotStarted] at h
  obtain ⟨_, _, ht⟩ := h
  exact portsInv_of_ports (by rw [ht]) hv

theorem portsInv_endSlot {s : State} (hs : PortsInv s) : PortsInv (endSlot s) := by
  have hc : PortsInv (slotClosed s) := portsInv_of_ports rfl hs
  rcases endSlot_cases s with ⟨_, he⟩ | ⟨_, _, he⟩ | ⟨_, _, _, he⟩ | ⟨_, _, _, he⟩
  · exact portsInv_of_ports (by rw [he]) hc
  · exact portsInv_of_slotStarted he hc
  · exact portsInv_of_frameStarted he (portsInv_of_ports rfl hs)
  · exact portsInv_of_ports (by rw [he]) hc

theorem portsInv_markFirst {s : State} (hs : PortsInv s) : PortsInv (markFirst s) := by
  obtain ⟨u, hu, ht⟩ := markFirst_spec s
  have hb := portsInv_beatTime (portsInv_of_markTaken hu hs)
  exact portsInv_of_slotStarted ht (portsInv_of_ports rfl hb)

theorem portsInv_gapMarkFirst {s : State} (hs : PortsInv s) : PortsInv (gapMarkFirst s) := by
  obtain ⟨u, hu, ht⟩ := gapMarkFirst_spec s
  have hb := portsInv_beatTime (portsInv_of_markTaken hu hs)
  exact portsInv_of_slotStarted ht (portsInv_of_ports rfl hb)

/-! ### Requests and deliveries -/

/-- CLOSED is the last of the checks, so a closed port refuses every request (R118). -/
theorem firstFailure_closed (r : Request) (window : Nat) : firstFailure r window true ≠ none := by
  unfold firstFailure
  dsimp only
  rw [if_pos rfl]
  repeat' split
  all_goals simp

theorem portsInv_takeRequest {p : Port} {r : Request} {s : State} (h : canTake s p = true) (hs : PortsInv s) :
    PortsInv (takeRequest p r s) := by
  have hx := hs p
  have htaken := takeRequest_spec p r s
  dsimp only [Taken] at htaken
  obtain ⟨hother, hself⟩ := htaken
  refine portsInv_of_port (p := p) ?_ (fun r hr => by rw [hother r hr]) hs
  obtain ⟨_, hstate⟩ := (canTake_iff s p).1 h
  have hne : (s.port p).state ≠ .resetting := by
    rcases hstate with hd | ⟨ho | hh, _⟩
    · rw [hd]; decide
    · rw [ho]; decide
    · rw [hh]; decide
  have hnew : ∀ (e : Entry), e.marked = false → ∀ d ∈ (s.port p).queue ++ [e], EntryFits (s.port p).state d := by
    intro e he d hd
    rcases List.mem_append.1 hd with hd | hd
    · exact portOk_fits hx d hd
    · rw [List.mem_singleton.1 hd]
      exact (entryFits_other hne).2 he
  split at hself
  · next hnone =>
    obtain ⟨hp, _⟩ := hself
    have hlen : (s.port p).queue.length < 4 := by
      rcases hstate with hd | ⟨_, hlen⟩
      · exact absurd hnone (by simpa [hd] using firstFailure_closed r _)
      · exact hlen
    rw [hp]
    exact portOk_settled hx rfl rfl rfl rfl (by simpa using hlen) (hnew _ rfl)
  · next why _ =>
    split at hself
    · obtain ⟨hp, _⟩ := hself
      rw [hp]
      exact portOk_congr rfl rfl rfl (portOk_waitCounter hx) hx
    · next hnd =>
      obtain ⟨hp, _⟩ := hself
      have hlen : (s.port p).queue.length < 4 := by
        rcases hstate with hd | ⟨_, hlen⟩
        · exact absurd hd hnd
        · exact hlen
      obtain ⟨_, hdue, _⟩ := id hx
      rw [hp]
      exact portOk_queue hx rfl rfl rfl (by simpa using hlen) ((dropDue_append rfl).trans hdue) (hnew _ rfl)

/-- An entry with a response is fully issued (R122). -/
theorem fullyIssued_of_response {e : Entry} {r : Response} (h : e.response = some r) : e.fullyIssued = true := by
  unfold Entry.response at h
  unfold Entry.fullyIssued
  cases hs : e.state <;> simp_all

theorem portsInv_deliver (p : Port) {s : State} (hs : PortsInv s) : PortsInv (deliver p s) := by
  rcases deliver_cases p s with ⟨_, h⟩ | ⟨e, rest, r, _, hst, hq, hresp, h⟩
  · rw [h]
    exact hs
  · have hx := hs p
    obtain ⟨hlen, hdue, hopen, hclosed, hwait, hfits⟩ := (portOk_iff _).1 hx
    rw [hq] at hlen hdue hfits
    unfold dropDue at hdue
    rw [if_pos (fullyIssued_of_response hresp)] at hdue
    rw [h]
    split
    · next hhalt =>
      obtain ⟨_, hhalt⟩ := hhalt
      refine portsInv_of_onlyLoss (fun q => onlyLoss_closeWhere _ _ _ q) (portsInv_setPort ?_ hs)
      rw [portOk_iff]
      exact ⟨Nat.zero_le _, rfl, fun h => PortState.noConfusion h, fun _ => hclosed (.inl hhalt), hwait,
        fun _ h => absurd h List.not_mem_nil⟩
    · refine portsInv_setPort (portOk_queue hx rfl rfl rfl ?_ hdue ?_) hs
      · exact Nat.le_of_succ_le hlen
      · exact fun d hd => hfits d (List.mem_cons_of_mem _ hd)

/-! ### Port resets -/

theorem portsInv_startReset (p : Port) {s : State} (hs : PortsInv s) : PortsInv (startReset p s) := by
  by_cases hst : (s.port p).state = .resetting
  · rw [startReset_resetting p s hst]
    exact hs
  · have h := startReset_spec p s hst
    dsimp only [ResetStarted] at h
    obtain ⟨hp, hother, _⟩ := h
    refine portsInv_of_port (p := p) ?_ (fun r hr => by rw [hother r hr]) hs
    obtain ⟨hlen, _⟩ := hs p
    have hkept : ∀ e ∈ ((s.port p).queue.filter (keptAtReset s)).map fun e => { e with marked := true },
        EntryFits .resetting e := by
      intro e he
      obtain ⟨d, hd, rfl⟩ := List.mem_map.1 he
      obtain ⟨_, hk⟩ := List.mem_filter.1 hd
      unfold keptAtReset at hk
      simp only [Bool.and_eq_true, Bool.or_eq_true, beq_iff_eq] at hk
      exact (entryFits_resetting rfl).2 ⟨rfl, hk.1⟩
    rw [hp, portOk_iff]
    refine ⟨?_, ?_, fun h => PortState.noConfusion h, fun h => h.elim PortState.noConfusion PortState.noConfusion,
      Nat.zero_le _, hkept⟩
    · rw [List.length_map]
      exact Nat.le_trans (List.length_filter_le _ _) hlen
    · refine dropDue_of_none_waiting fun e he hw => ?_
      obtain ⟨_, h⟩ := (entryFits_resetting rfl).1 (hkept e he)
      simp [hw] at h

theorem portsInv_endReset (p : Port) {s : State} (hs : PortsInv s) : PortsInv (endReset p s) := by
  rcases endReset_cases p s with ⟨_, _, h⟩ | ⟨_, h⟩
  · rw [h]
    have hwait := portOk_waitCounter (hs p)
    have hp : PortOk { s.port p with state := if (s.port p).enabled then .opened else .disabled, queue := [] } := by
      rw [portOk_iff]
      refine ⟨Nat.zero_le _, rfl, ?_, ?_, hwait, fun _ h => absurd h List.not_mem_nil⟩
      all_goals cases he : (s.port p).enabled <;> simp
    exact portsInv_of_ports rfl (portsInv_setPort hp hs)
  · rw [h]
    exact hs

/-! ### Responses and the wedge -/

theorem portsInv_of_windowAfter {u t : State} (h : WindowAfter u t) (hu : PortsInv u) : PortsInv t := by
  dsimp only [WindowAfter] at h
  exact portsInv_of_ports (by rw [h]) hu

/-- What is made of the entries of a RESETTING port is again marked, and of any other port not, and stands where it
stood. -/
theorem portOk_filterMap {x y : PortRec} {g : Entry → Option Entry} (hx : PortOk x) (hs : y.state = x.state)
    (he : y.enabled = x.enabled) (hw : y.waitCounter = x.waitCounter) (hq : y.queue = x.queue.filterMap g)
    (hfits : ∀ e e', g e = some e' → EntryFits x.state e → EntryFits x.state e')
    (hplace : ∀ e, e.marked = false → ∃ e', g e = some e' ∧ KeepsPlace e e') : PortOk y := by
  obtain ⟨hlen, hdue, _, _, _, hf⟩ := (portOk_iff x).1 hx
  have hf' := fits_filterMap hf hfits
  refine portOk_queue hx hs he hw ?_ ?_ ?_
  · rw [hq]
    exact Nat.le_trans (List.length_filterMap_le _ _) hlen
  · rw [hq]
    by_cases hst : x.state = .resetting
    · refine dropDue_of_none_waiting fun e he hw => ?_
      obtain ⟨_, h⟩ := (entryFits_resetting hst).1 (hf' e he)
      simp [hw] at h
    · rw [dropDue_filterMap fun e he => hplace e ((entryFits_other hst).1 (hf e he)), hdue]
  · rw [hq]
    exact hf'

theorem portsInv_matched (b : BeatRecord) (rest : List BeatRecord) (bad : Bool) (element : Elem) {s : State}
    (hs : PortsInv s) : PortsInv (matched s b rest bad element) := by
  unfold matched
  dsimp only
  refine portsInv_setPort ?_ (portsInv_of_ports rfl hs)
  refine portOk_filterMap (hs b.port) rfl rfl rfl rfl (fun e e' h hf => ?_) fun e hm => ?_
  · split at h
    · cases h
      exact hf
    · split at h
      · cases h
        exact hf.changed rfl fun _ hs => hs
      · split at h
        · cases h
        · next hm =>
          have hst : ((s.port b.port).state ≠ .resetting) := fun hst => hm ((entryFits_resetting hst).1 hf).1
          split at h
          all_goals
            cases h
            exact hf.changed rfl fun hr => absurd hr hst
  · split
    · exact ⟨e, rfl, .refl e⟩
    · split
      · exact ⟨_, rfl, rfl, rfl, Iff.rfl⟩
      · rw [if_neg (by simp [hm])]
        split
        · next hi => exact ⟨_, rfl, by simp [Entry.fullyIssued, hi], rfl, by simp [hi]⟩
        · exact ⟨_, rfl, rfl, rfl, Iff.rfl⟩

theorem portsInv_readFailed (b : BeatRecord) (rest : List BeatRecord) {s : State} (hs : PortsInv s) :
    PortsInv (readFailed s b rest) := by
  unfold readFailed
  dsimp only
  refine portsInv_setPort ?_ (portsInv_of_ports rfl hs)
  have hx := hs b.port
  refine portOk_settled hx rfl rfl rfl rfl ?_ ?_
  · exact Nat.le_trans (List.length_filterMap_le _ _) hx.1
  · refine fits_filterMap (portOk_fits hx) fun e e' h hf => ?_
    split at h
    · cases h
      exact hf
    · split at h
      · cases h
      · next hm =>
        cases h
        exact hf.changed rfl fun hst => absurd ((entryFits_resetting hst).1 hf).1 hm

theorem portsInv_takeResponse (status : MemStatus) (element : Elem) {s : State} (hs : PortsInv s) :
    PortsInv (takeResponse status element s) := by
  have ht := takeResponse_taken status element s
  generalize takeResponse status element s = t at ht ⊢
  cases ht with
  | discarded | owed _ | stray _ _ => exact hs
  | unclaimed b rest _ _ _ => exact portsInv_of_windowAfter (grantMaint_spec _) (portsInv_of_ports rfl hs)
  | matched b rest bad element _ _ =>
    exact portsInv_of_windowAfter (grantMaint_spec _) (portsInv_matched b rest bad element hs)
  | answered b rest a old new clamped _ _ _ =>
    unfold readAnswered
    refine portsInv_setPort ?_ (portsInv_of_ports rfl hs)
    exact portOk_congr rfl rfl rfl (portOk_waitCounter (hs a.port)) (hs a.port)
  | failed b rest _ _ =>
    exact portsInv_of_windowAfter (grantMaint_spec _) (portsInv_readFailed b rest hs)

theorem portsInv_takeWedge {s : State} (hs : PortsInv s) : PortsInv (takeWedge s) := by
  intro p
  have hx := hs p
  rw [(takeWedge_spec s).1 p]
  refine portOk_settled hx rfl rfl rfl rfl ?_ ?_
  · exact Nat.le_trans (List.length_filterMap_le _ _) hx.1
  · refine fits_filterMap (portOk_fits hx) fun e e' h hf => ?_
    unfold wedgedEntry at h
    split at h
    · split at h
      · cases h
      · next hm =>
        cases h
        exact hf.changed rfl fun hst => absurd ((entryFits_resetting hst).1 hf).1 hm
    · cases h
      exact hf

/-! ### Every happening -/

theorem portsInv_pinReset (s : State) : PortsInv (pinReset s) := by
  intro p
  have hp := pinReset_port s p
  rw [hp, portOk_iff]
  exact ⟨Nat.zero_le _, rfl, fun _ => rfl, fun h => h.elim PortState.noConfusion PortState.noConfusion, Nat.zero_le _,
    fun _ h => absurd h List.not_mem_nil⟩

/-- PORT_ENABLE sets the enable setting, and a HALTING or DISABLED port becomes OPEN (R126). -/
theorem enablePort_eq (x : PortRec) :
    enablePort x =
      { x with enabled := true, state := if x.state = .halting ∨ x.state = .disabled then .opened else x.state } := by
  unfold enablePort
  cases x.state <;> rfl

theorem portOk_enablePort {x : PortRec} (hx : PortOk x) : PortOk (enablePort x) := by
  obtain ⟨hlen, hdue, _, _, hwait, hf⟩ := (portOk_iff x).1 hx
  rw [portOk_iff, enablePort_eq]
  by_cases hst : x.state = .halting ∨ x.state = .disabled
  · simp only [if_pos hst]
    refine ⟨hlen, hdue, fun _ => trivial, fun h => h.elim PortState.noConfusion PortState.noConfusion, hwait, fun e he => ?_⟩
    have hne : x.state ≠ .resetting := by
      rcases hst with h | h
      all_goals
        rw [h]
        decide
    exact (entryFits_other (by decide)).2 ((entryFits_other hne).1 (hf e he))
  · simp only [if_neg hst]
    exact ⟨hlen, hdue, fun _ => trivial, fun h => absurd h hst, hwait, hf⟩

theorem portsInv_disablePort (p : Port) {s : State} (hs : PortsInv s) : PortsInv (disablePort p s) := by
  obtain ⟨hlen, hdue, hopen, _, hwait, hf⟩ := (portOk_iff _).1 (hs p)
  rcases disablePort_cases p s with ⟨hst, hq, h⟩ | ⟨hst, _, h⟩ | ⟨hst, h⟩
  · rw [h]
    refine portsInv_of_onlyLoss (fun q => onlyLoss_closeWhere _ _ _ q) (portsInv_modPort ?_ hs)
    rw [portOk_iff]
    refine ⟨hlen, hdue, fun h => PortState.noConfusion h, fun _ => rfl, hwait, ?_⟩
    change ∀ e ∈ (s.port p).queue, _
    simp [hq]
  · rw [h]
    refine portsInv_modPort ?_ hs
    rw [portOk_iff]
    refine ⟨hlen, hdue, fun h => PortState.noConfusion h, fun _ => rfl, hwait, ?_⟩
    rw [hst] at hf
    exact hf
  · rw [h]
    refine portsInv_modPort ?_ hs
    rw [portOk_iff]
    exact ⟨hlen, hdue, fun h => absurd h hst, fun _ => rfl, hwait, hf⟩

theorem portsInv_settingWritten (number : Nat) (value : Half) {s : State} (hs : PortsInv s) :
    PortsInv (settingWritten number value s) := by
  rcases settingWritten_cases number value s with ⟨_, _, _, h⟩ | ⟨_, _, h⟩ | ⟨_, _, h⟩ | ⟨_, _, h⟩ | ⟨_, h⟩ |
    ⟨_, _, _, _, h⟩
  · rw [h]
    exact portsInv_frameStart (portsInv_of_ports rfl hs)
  · exact portsInv_of_ports (by rw [h]; rfl) hs
  · rw [h]
    exact portsInv_of_onlyLoss (fun q => onlyLoss_closeWhere _ _ _ q) (portsInv_of_ports rfl hs)
  · rw [h]
    exact portsInv_of_onlyLoss (fun q => onlyLoss_closeWhere _ _ _ q) (portsInv_of_ports rfl hs)
  · exact portsInv_of_ports (by rw [h]; rfl) hs
  · exact portsInv_of_ports (by rw [h]; rfl) hs

theorem portsInv_act {s t : State} (h : Act s t) (hs : PortsInv s) : PortsInv t := by
  cases h with
  | framed _ | counted _ | raised _ | recovery _ | maintReq _ | noticeTaken | shadow _ _ _ | swap _ _ | commit _
  | cancel | enterGap _ _ _ | drain _ _ => exact hs
  | firstFrame _ => exact portsInv_frameStart (portsInv_of_ports rfl hs)
  | line p _ | presented p _ => exact portsInv_modPort (portOk_congr rfl rfl rfl (portOk_waitCounter (hs p)) (hs p)) hs
  | portReset p => exact portsInv_startReset p hs
  | portResetEnd p => exact portsInv_endReset p hs
  | frameStart _ _ => exact portsInv_frameStart hs
  | gapMarkFirst _ => exact portsInv_gapMarkFirst hs
  | slotEnd _ => exact portsInv_endSlot hs
  | markFirst _ => exact portsInv_markFirst hs
  | beat _ => exact portsInv_beatTime hs
  | response status element => exact portsInv_takeResponse status element hs
  | wedge _ => exact portsInv_takeWedge hs
  | maintGrant => exact portsInv_of_windowAfter (grantMaint_spec s) hs
  | delivery p => exact portsInv_deliver p hs
  | drops p => exact portsInv_takeDrops p hs
  | taken p r h => exact portsInv_takeRequest h hs
  | enable p => exact portsInv_modPort (portOk_enablePort (hs p)) hs
  | disable p => exact portsInv_disablePort p hs
  | purgePort p => exact portsInv_of_onlyLoss (fun q => onlyLoss_closeWhere _ _ _ q) hs
  | purgeAll => exact portsInv_of_onlyLoss (fun q => onlyLoss_closeWhere _ _ _ q) hs
  | cleared =>
    intro p
    have hp : (clearAll s).port p = clearPort (s.port p) := port_mapPorts s (fun _ x => clearPort x) p
    rw [hp]
    exact portOk_congr rfl rfl rfl (portOk_waitCounter (hs p)) (hs p)
  | setting number value _ _ => exact portsInv_settingWritten number value hs
  | enterStopped _ _ => exact portsInv_of_ports (by rw [enterStopped_spec s]) hs

/-- Settles O9: every queue is settled where an entry of it changes its place in issue, and a reset marks what it leaves. -/
theorem portLawsKeptByEveryStep : Obligations.PortLawsKeptByEveryStep := fun _ _ hs h =>
  step_keeps (P := PortsInv) (fun _ _ ha => portsInv_act ha) (fun s _ => portsInv_pinReset s) (fun _ _ h => h) hs h

end Sys2Proof.Proofs
end

section
/-! PROOF. The laws of the link table (R58, R59, R73). -/

namespace Sys2Proof.Proofs

open Sys2Proof Sys2Proof.Machine Sys2Proof.Safety

/-! ### The table, and the ports it has no link of -/

/-- The laws of the table alone, under a LINK_LIMIT and a GRANULE (R58, R59). -/
structure LinksOk (limit granule : Nat) (links : List Link) : Prop where
  size : links.length ≤ 12
  held : ∀ p : Port, heldBy p links ≤ limit
  distinct : LinksDistinct links
  sound : ∀ l ∈ links, granuleBase granule l.base = l.base ∧ l.age ≤ 255

/-- A DISABLED or RESETTING port holds no link, and a DISABLED port's queue is empty (R73, R124). -/
structure PortUnlinked (links : List Link) (p : Port) (x : PortRec) : Prop where
  links : x.state = .disabled ∨ x.state = .resetting → ∀ l ∈ links, l.holder ≠ p
  queue : x.state = .disabled → x.queue = []

theorem linkInv_iff (s : State) :
    LinkInv s ↔ (s.settings.linkLimit = 1 ∨ s.settings.linkLimit = 2) ∧
      LinksOk s.settings.linkLimit s.settings.granule s.links ∧ (s.mem.state = .wedged → s.links = []) ∧
      ∀ p : Port, PortUnlinked s.links p (s.port p) := by
  constructor
  · rintro ⟨hlim, hlen, hheld, hd, hsound, hw, hlinks, hq⟩
    exact ⟨hlim, ⟨hlen, hheld, hd, hsound⟩, hw, fun p => ⟨hlinks p, hq p⟩⟩
  · rintro ⟨hlim, ⟨hlen, hheld, hd, hsound⟩, hw, hp⟩
    exact ⟨hlim, hlen, hheld, hd, hsound, hw, fun p => (hp p).links, fun p => (hp p).queue⟩

theorem LinksOk.nil (limit granule : Nat) : LinksOk limit granule [] :=
  ⟨Nat.zero_le _, fun _ => Nat.zero_le _, .nil, fun _ h => absurd h List.not_mem_nil⟩

/-- A part of a table keeps its laws. -/
theorem LinksOk.sublist {limit granule : Nat} {links links' : List Link} (h : LinksOk limit granule links)
    (hs : links'.Sublist links) : LinksOk limit granule links' :=
  ⟨hs.length_le.trans h.size, fun p => hs.countP_le.trans (h.held p), h.distinct.sublist hs,
    fun l hl => h.sound l (hs.subset hl)⟩

theorem PortUnlinked.sublist {links links' : List Link} {p : Port} {x y : PortRec} (h : PortUnlinked links p x)
    (hs : links'.Sublist links) (hst : y.state = x.state) (hq : x.queue = [] → y.queue = []) :
    PortUnlinked links' p y := by
  refine ⟨fun hy l hl => ?_, fun hy => ?_⟩
  · rw [hst] at hy
    exact h.links hy l (hs.subset hl)
  · rw [hst] at hy
    exact hq (h.queue hy)

/-- A port that is neither DISABLED nor RESETTING is as the laws ask. -/
theorem portUnlinked_of_active (links : List Link) (p : Port) {x : PortRec} (hd : x.state ≠ .disabled)
    (hr : x.state ≠ .resetting) : PortUnlinked links p x :=
  ⟨fun h => absurd h (not_or.2 ⟨hd, hr⟩), fun h => absurd h hd⟩

/-- Links only close, and no port is closed: the laws stand. -/
theorem linkInv_of_sublist {s t : State} (hs : LinkInv s) (hset : t.settings = s.settings)
    (hl : t.links.Sublist s.links) (hm : t.mem.state = .wedged → s.mem.state = .wedged ∨ t.links = [])
    (hp : ∀ p : Port, PortUnlinked s.links p (s.port p) → PortUnlinked t.links p (t.port p)) : LinkInv t := by
  obtain ⟨hlim, hok, hw, hu⟩ := (linkInv_iff s).1 hs
  rw [linkInv_iff, hset]
  refine ⟨hlim, hok.sublist hl, fun h => ?_, fun p => hp p (hu p)⟩
  rcases hm h with h | h
  · exact List.eq_nil_of_subset_nil (hw h ▸ hl.subset)
  · exact h

/-- The laws depend on the settings, the links, WEDGED and the ports' states and queues. -/
theorem linkInv_congr {s t : State} (hset : t.settings = s.settings) (hl : t.links = s.links)
    (hm : t.mem.state = s.mem.state)
    (hp : ∀ p : Port, (t.port p).state = (s.port p).state ∧ (t.port p).queue = (s.port p).queue) (hs : LinkInv s) :
    LinkInv t := by
  refine linkInv_of_sublist hs hset (hl ▸ .refl _) (fun h => .inl (hm ▸ h)) fun p h => ?_
  obtain ⟨hst, hq⟩ := hp p
  exact h.sublist (hl ▸ .refl _) hst fun h => hq.trans h

theorem linkInv_closeWhere (f : Link → Bool) (c : LossCause) {s : State} (hs : LinkInv s) :
    LinkInv (closeWhere f c s) := by
  have hsub : (closeWhere f c s).links.Sublist s.links := by
    rw [closeWhere_links]
    exact List.filter_sublist
  refine linkInv_of_sublist hs rfl hsub .inl fun p h => h.sublist hsub ?_ fun hq => ?_
  · rw [onlyLoss_closeWhere f c s p]
  · rw [onlyLoss_closeWhere f c s p, hq]

theorem settleDrops_eq_nil {q : List Entry} (h : q = []) : settleDrops q = [] := by
  rw [h]
  rfl

theorem withDrops_sublist (p : Port) (q : List Entry) (links : List Link) : (withDrops p q links).Sublist links := by
  unfold withDrops
  split
  · exact List.filter_sublist
  · exact .refl _

/-- A change of one port that keeps its state, and its queue empty if it was. -/
theorem portUnlinked_of_port {s t : State} {p : Port} (hl : t.links.Sublist s.links)
    (hs : (t.port p).state = (s.port p).state) (hq : (s.port p).queue = [] → (t.port p).queue = [])
    (ho : ∀ r : Port, r ≠ p → OnlyLoss (s.port r) (t.port r)) (r : Port) (h : PortUnlinked s.links r (s.port r)) :
    PortUnlinked t.links r (t.port r) := by
  by_cases hr : r = p
  · subst hr
    exact h.sublist hl hs hq
  · refine h.sublist hl ?_ fun hq => ?_
    · rw [ho r hr]
    · rw [ho r hr, hq]

theorem linkInv_takeDrops (p : Port) {s : State} (hs : LinkInv s) : LinkInv (takeDrops p s) := by
  have hsub : (takeDrops p s).links.Sublist s.links := by
    rw [takeDrops_links]
    exact withDrops_sublist _ _ _
  have hset : (takeDrops p s).settings = s.settings := by rw [takeDrops_frame]
  have hmem : (takeDrops p s).mem = s.mem := by rw [takeDrops_frame]
  refine linkInv_of_sublist hs hset hsub (fun h => .inl (hmem ▸ h)) fun r => portUnlinked_of_port (p := p) hsub ?_ ?_ ?_ r
  · rw [takeDrops_port, if_pos rfl]
    simp
  · intro hq
    rw [takeDrops_port, if_pos rfl]
    exact settleDrops_eq_nil hq
  · intro r hr
    rw [takeDrops_port, if_neg hr]

/-! ### The LINKED READ (R65 to R67) -/

theorem granuleBase_granuleBase (granule : Nat) (a : Word) :
    granuleBase granule (granuleBase granule a) = granuleBase granule a := by
  apply BitVec.eq_of_toNat_eq
  rw [granuleBase_toNat, granuleBase_toNat]
  rcases Nat.eq_zero_or_pos granule with rfl | hpos
  · simp
  · rw [Nat.mul_div_cancel _ hpos]

/-- A new link of port p keeps the laws of the table, if there is room for it and p holds none on its granule. -/
theorem LinksOk.append {limit granule : Nat} {links : List Link} {l : Link} (h : LinksOk limit granule links)
    (hsize : links.length < 12) (hheld : heldBy l.holder links < limit)
    (hnew : ∀ k ∈ links, ¬(k.holder = l.holder ∧ k.base = l.base)) (hbase : granuleBase granule l.base = l.base)
    (hage : l.age ≤ 255) : LinksOk limit granule (links ++ [l]) := by
  refine ⟨?_, fun p => ?_, ?_, fun k hk => ?_⟩
  · simpa using hsize
  · unfold heldBy at hheld ⊢
    rw [List.countP_append, List.countP_singleton]
    split
    · next hp =>
      rw [← beq_iff_eq.1 hp]
      exact hheld
    · exact h.held p
  · unfold LinksDistinct
    rw [List.pairwise_append]
    refine ⟨h.distinct, List.pairwise_singleton _ _, fun k hk k' hk' => ?_⟩
    rw [List.mem_singleton.1 hk']
    exact hnew k hk
  · rcases List.mem_append.1 hk with hk | hk
    · exact h.sound k hk
    · rw [List.mem_singleton.1 hk]
      exact ⟨hbase, hage⟩

theorem heldBy_eraseP {p : Port} {links : List Link} (h : 0 < heldBy p links) :
    heldBy p (links.eraseP fun l => l.holder == p) + 1 = heldBy p links := by
  induction links with
  | nil => exact absurd h (Nat.lt_irrefl _)
  | cons l rest ih =>
    unfold heldBy at h ih ⊢
    cases hl : l.holder == p with
    | true => simp [hl]
    | false => simpa [List.eraseP_cons, hl] using ih (by simpa [hl] using h)

theorem heldBy_filter_lt {p : Port} {links : List Link} {g : Word} {l : Link} (hl : l ∈ links)
    (hmine : (l.holder == p && l.base == g) = true) :
    heldBy p (links.filter fun l => !(l.holder == p && l.base == g)) < heldBy p links := by
  unfold heldBy
  rw [List.countP_eq_length_filter, List.filter_comm, List.countP_eq_length_filter]
  refine List.length_filter_lt_length_iff_exists.2 ⟨l, List.mem_filter.2 ⟨hl, ?_⟩, by simp [hmine]⟩
  rw [Bool.and_eq_true] at hmine
  exact hmine.1

/-- What stands ahead of a new link is part of the table (R66, R67). -/
theorem afterEviction_sublist (s : State) (p : Port) : (afterEviction s p).Sublist s.links := by
  have hfirst : (afterReplacement s p).Sublist s.links := by
    unfold afterReplacement
    split
    · exact List.eraseP_sublist
    · exact .refl _
  unfold afterEviction
  split
  · exact (List.tail_sublist _).trans hfirst
  · exact hfirst

theorem afterEviction_room {s : State} {p : Port} (hlim : 1 ≤ s.settings.linkLimit)
    (h : LinksOk s.settings.linkLimit s.settings.granule s.links) :
    (afterEviction s p).length < 12 ∧ heldBy p (afterEviction s p) < s.settings.linkLimit := by
  have hfirst : (afterReplacement s p).length ≤ 12 ∧ heldBy p (afterReplacement s p) < s.settings.linkLimit := by
    unfold afterReplacement
    split
    · next hfull =>
      have hcount := heldBy_eraseP (hlim.trans hfull)
      have hheld := h.held p
      exact ⟨List.eraseP_sublist.length_le.trans h.size, by omega⟩
    · next hroom => exact ⟨h.size, Nat.not_le.1 hroom⟩
  obtain ⟨hlen, hheld⟩ := hfirst
  unfold afterEviction
  split
  · refine ⟨?_, lt_of_le_of_lt (List.tail_sublist _).countP_le hheld⟩
    rw [List.length_tail]
    omega
  · next hroom => exact ⟨Nat.not_le.1 hroom, hheld⟩

/-- The table behind a LINKED READ beat keeps its laws (R65 to R67). -/
theorem linksOk_linksAfterLinkedRead {s : State} (hlim : 1 ≤ s.settings.linkLimit)
    (h : LinksOk s.settings.linkLimit s.settings.granule s.links) (p : Port) (a : Word) (bytes : Nat) :
    LinksOk s.settings.linkLimit s.settings.granule (linksAfterLinkedRead s p a bytes) := by
  have hbase := granuleBase_granuleBase s.settings.granule a
  cases ho : opensLink s p a with
  | true =>
    rw [linksAfterLinkedRead_of_opens ho]
    obtain ⟨hroom, hheld⟩ := afterEviction_room (p := p) hlim h
    refine (h.sublist (afterEviction_sublist s p)).append hroom hheld (fun k hk hsame => ?_) hbase (Nat.zero_le _)
    have hnone : s.links.any (fun l => l.holder == p && l.base == granuleBase s.settings.granule a) = false := by
      simpa [opensLink] using ho
    obtain ⟨hholder, hb⟩ := hsame
    have hk' := List.any_eq_false.1 hnone k ((afterEviction_sublist s p).subset hk)
    exact hk' (by rw [hholder, hb]; simp [linkMade])
  | false =>
    rw [linksAfterLinkedRead_of_held ho]
    obtain ⟨l, hl, hmine⟩ : ∃ l ∈ s.links, (l.holder == p && l.base == granuleBase s.settings.granule a) = true := by
      rw [← List.any_eq_true]
      simpa [opensLink] using ho
    refine (h.sublist List.filter_sublist).append ?_ ?_ (fun k hk hsame => ?_) hbase (Nat.zero_le _)
    · refine lt_of_lt_of_le (List.length_filter_lt_length_iff_exists.2 ⟨l, hl, ?_⟩) h.size
      simp [hmine]
    · exact lt_of_lt_of_le (heldBy_filter_lt hl hmine) (h.held p)
    · obtain ⟨_, hk⟩ := List.mem_filter.1 hk
      obtain ⟨hholder, hb⟩ := hsame
      rw [hholder, hb] at hk
      simp [linkMade] at hk

/-! ### A beat time -/

section
variable {u v : State} {p : Port} {entry index : Nat} {kind : BeatKind} {a : Word} {bytes : Nat} {value : Option Elem}
  {f : Entry → Entry}

/-- A beat that opens no link only closes links (R64, R69). -/
theorem beatShown_links_sublist (hk : kind ≠ .linkedRead) :
    (beatShown p entry index kind a bytes value v).links.Sublist v.links := by
  cases kind with
  | read | atomicRead => exact .refl _
  | linkedRead => exact absurd rfl hk
  | conditionalWrite =>
    change (closeOthers p a (beatDriven p entry index .conditionalWrite a bytes value v)).links.Sublist v.links
    unfold closeOthers
    rw [closeWhere_links]
    exact List.filter_sublist
  | write =>
    rw [beatShown_write_links p entry index .write a bytes value v (.inl rfl)]
    exact List.filter_sublist
  | atomicWrite =>
    rw [beatShown_write_links p entry index .atomicWrite a bytes value v (.inr (.inl rfl))]
    exact List.filter_sublist

/-- The ports behind a placed beat, over a table that holds no link of a closed port. -/
theorem portUnlinked_placeBeat {links : List Link}
    (hl : (placeBeat p entry index kind a bytes value f v).links.Sublist links) {r : Port}
    (h : PortUnlinked links r (v.port r)) :
    PortUnlinked (placeBeat p entry index kind a bytes value f v).links r
      ((placeBeat p entry index kind a bytes value f v).port r) := by
  by_cases hr : r = p
  · subst hr
    have hself := placeBeat_port_self r entry index kind a bytes value f v
    refine h.sublist hl ?_ fun hq => ?_
    · rw [hself]
    · rw [hself]
      refine settleDrops_eq_nil ?_
      unfold queueBehind
      rw [hq, changed_nil]
  · have hne := placeBeat_port_ne p entry index kind a bytes value f v hr
    refine h.sublist hl ?_ fun hq => ?_
    · rw [hne]
    · rw [hne, hq]

theorem linkInv_placeBeat (hk : kind ≠ .linkedRead) (hv : LinkInv v) :
    LinkInv (placeBeat p entry index kind a bytes value f v) := by
  have hl : (placeBeat p entry index kind a bytes value f v).links.Sublist v.links := by
    rw [placeBeat_links]
    exact (withDrops_sublist _ _ _).trans (beatShown_links_sublist hk)
  have hset : (placeBeat p entry index kind a bytes value f v).settings = v.settings := by rw [placeBeat_frame]
  have hm : (placeBeat p entry index kind a bytes value f v).mem.state = v.mem.state := by rw [placeBeat_frame]
  exact linkInv_of_sublist hv hset hl (fun h => .inl (hm ▸ h)) fun r h => portUnlinked_placeBeat hl h

end

/-- A port with a head is neither RESETTING nor, its queue not being empty, DISABLED (R124). -/
theorem Considers.active {s : State} {p : Port} {e : Entry} (h : Considers s p e) (hs : LinkInv s) :
    (s.port p).state ≠ .disabled ∧ (s.port p).state ≠ .resetting := by
  obtain ⟨_, _, _, hu⟩ := (linkInv_iff s).1 hs
  obtain ⟨_, _, _, hmem, _⟩ := issueHead_some h.head
  refine ⟨fun hd => ?_, h.not_resetting⟩
  rw [(hu p).queue hd] at hmem
  cases hmem

/-- A LINKED READ beat: the table takes the link, the port of which is active, and the memory port is READY. -/
theorem linkInv_placeLinkedRead {s : State} {p : Port} {e : Entry} (hc : Considers s p e) (hs : LinkInv s) :
    LinkInv (placeLinkedRead p e s) := by
  obtain ⟨hlim, hok, _, hu⟩ := (linkInv_iff s).1 hs
  obtain ⟨hready, _⟩ := (pathFree_iff s).1 hc.free
  have hlim' : 1 ≤ s.settings.linkLimit := by omega
  have hsub : (placeLinkedRead p e s).links.Sublist (linksAfterLinkedRead s p e.req.addr e.req.bytes) := by
    rw [placeLinkedRead_links hs]
    exact withDrops_sublist _ _ _
  have hframe := placeBeat_frame p e.id 0 .linkedRead e.req.addr e.req.bytes none afterOnlyBeat s
  rw [← placeLinkedRead_eq] at hframe
  have hset : (placeLinkedRead p e s).settings = s.settings := by rw [hframe]
  have hm : (placeLinkedRead p e s).mem.state = s.mem.state := by rw [hframe]
  rw [linkInv_iff, hset, hm]
  refine ⟨hlim, (linksOk_linksAfterLinkedRead hlim' hok p e.req.addr e.req.bytes).sublist hsub, fun h => ?_, fun r => ?_⟩
  · simp [hready] at h
  · rw [placeLinkedRead_eq] at hsub ⊢
    refine portUnlinked_placeBeat hsub ?_
    by_cases hr : r = p
    · subst hr
      obtain ⟨hd, hr⟩ := hc.active hs
      exact portUnlinked_of_active _ _ hd hr
    · refine ⟨fun hst l hl hholder => ?_, (hu r).queue⟩
      refine (hu r).links hst l ?_ hholder
      cases ho : opensLink s p e.req.addr with
      | true =>
        rw [linksAfterLinkedRead_of_opens ho] at hl
        rcases List.mem_append.1 hl with hl | hl
        · exact (afterEviction_sublist s p).subset hl
        · rw [List.mem_singleton.1 hl] at hholder
          exact absurd hholder.symm hr
      | false =>
        rw [linksAfterLinkedRead_of_held ho] at hl
        rcases List.mem_append.1 hl with hl | hl
        · exact List.filter_sublist.subset hl
        · rw [List.mem_singleton.1 hl] at hholder
          exact absurd hholder.symm hr

theorem linkInv_linkConsumed (p : Port) (e : Entry) {s : State} (hs : LinkInv s) : LinkInv (linkConsumed p e s) := by
  have hsub : (linkConsumed p e s).links.Sublist s.links := List.filter_sublist
  refine linkInv_of_sublist hs rfl hsub .inl fun r => portUnlinked_of_port (p := p) hsub ?_ (fun hq => ?_) ?_ r
  · rw [linkConsumed_port_self]
  · rw [linkConsumed_port_self, hq]
  · intro r hr
    rw [linkConsumed_port_ne hr]

theorem linkInv_places {u t : State} {p : Port} (h : Places u t p) (hu : LinkInv u) : LinkInv t := by
  cases h with
  | burst _ e hc _ =>
    have hk : burstKind e ≠ .linkedRead := by
      unfold burstKind
      split <;> simp
    rw [placeBurst_eq]
    exact linkInv_placeBeat hk hu
  | linkedRead _ e hc _ => exact linkInv_placeLinkedRead hc hu
  | success _ e hc _ =>
    rw [judgeSuccess_eq]
    exact linkInv_placeBeat (by simp) (linkInv_linkConsumed p e hu)
  | atomicRead _ e hc _ =>
    rw [placeAtomicRead_eq hc.head]
    exact linkInv_congr rfl rfl rfl (fun _ => ⟨rfl, rfl⟩) (linkInv_placeBeat (by simp) hu)
  | owed a old new clamped _ _ _ _ =>
    unfold placeAtomicWrite
    have hv : LinkInv (owedTaken a u) := linkInv_congr rfl rfl rfl (fun _ => ⟨rfl, rfl⟩) hu
    exact linkInv_placeBeat (by simp) hv

theorem linkInv_fails {u v : State} (h : Fails u v) (hu : LinkInv u) : LinkInv v := by
  cases h with
  | failed p e w hc _ =>
    have hsub : (afterFailure u p e w).links.Sublist u.links := by
      unfold afterFailure
      dsimp only
      rw [setLinks_links]
      refine (withDrops_sublist _ _ _).trans ?_
      split
      · exact List.filter_sublist
      · exact .refl _
    refine linkInv_of_sublist hu rfl hsub .inl fun r => portUnlinked_of_port (p := p) hsub ?_ (fun hq => ?_) ?_ r
    · unfold afterFailure
      dsimp only
      rw [setLinks_port, port_setPort_self]
    · rw [afterFailure_port_self, hq]
      rfl
    · intro r hr
      unfold afterFailure
      dsimp only
      rw [setLinks_port, port_setPort_ne _ _ hr]

theorem linkInv_beatTime {s : State} (hs : LinkInv s) : LinkInv (beatTime s) := by
  refine beatTime_keeps (P := LinkInv) (fun u v h hu => linkInv_fails h hu) (fun u t p h hu => linkInv_places h hu)
    (fun o v hv => ?_) (linkInv_congr rfl rfl rfl (fun _ => ⟨rfl, rfl⟩) hs)
  refine linkInv_congr (endBeat_settings o v) (endBeat_links o v) (by rw [endBeat_mem]) (fun p => ?_) hv
  rw [endBeat_port]
  exact ⟨rfl, rfl⟩

/-! ### Frames -/

/-- A frame mark ages the links and closes the old ones (R71); states and queues stay. -/
theorem linkInv_atMark {s t : State} (hset : t.settings = s.settings) (hm : t.mem.state = s.mem.state)
    (hl : t.links = (agedLinks s).filter fun l => !tooOld s l) (hp : ∀ p : Port, t.port p = portAtMark s p)
    (hs : LinkInv s) : LinkInv t := by
  obtain ⟨hlim, ⟨hsize, hheld, hd, hsound⟩, hw, hu⟩ := (linkInv_iff s).1 hs
  have haged : LinksOk s.settings.linkLimit s.settings.granule (agedLinks s) := by
    refine ⟨?_, fun p => ?_, ?_, fun l hl => ?_⟩
    · unfold agedLinks
      rw [List.length_map]
      exact hsize
    · unfold agedLinks heldBy
      rw [List.countP_map]
      exact hheld p
    · unfold agedLinks LinksDistinct
      rw [List.pairwise_map]
      exact hd
    · obtain ⟨k, hk, rfl⟩ := List.mem_map.1 hl
      exact ⟨(hsound k hk).1, Nat.min_le_left _ _⟩
  rw [linkInv_iff, hset, hm, hl]
  refine ⟨hlim, haged.sublist List.filter_sublist, fun h => ?_, fun p => ⟨fun hst l hl hholder => ?_, ?_⟩⟩
  · unfold agedLinks
    rw [hw h]
    rfl
  · rw [hp p] at hst
    obtain ⟨k, hk, rfl⟩ := List.mem_map.1 (List.filter_sublist.subset hl)
    exact (hu p).links hst k hk hholder
  · rw [hp p]
    exact (hu p).queue

theorem linkInv_of_frameStarted {s t : State} (h : FrameStarted s t) (hs : LinkInv s) : LinkInv t := by
  dsimp only [FrameStarted] at h
  obtain ⟨_, _, _, hp, hl, _, ht⟩ := h
  exact linkInv_atMark (by rw [ht]) (by rw [ht]) hl hp hs

theorem linkInv_frameStart {s : State} (hs : LinkInv s) : LinkInv (frameStart s) :=
  linkInv_of_frameStarted (frameStart_spec s) hs

theorem linkInv_of_markTaken {s u : State} (h : MarkTaken s u) (hs : LinkInv s) : LinkInv u := by
  dsimp only [MarkTaken] at h
  obtain ⟨hp, hl, _, hu⟩ := h
  exact linkInv_atMark (by rw [hu]) (by rw [hu]) hl hp hs

/-- States with the same ports. -/
theorem linkInv_of_ports {s t : State} (hset : t.settings = s.settings) (hl : t.links = s.links)
    (hm : t.mem.state = s.mem.state) (hp : t.ports = s.ports) (hs : LinkInv s) : LinkInv t := by
  refine linkInv_congr hset hl hm (fun p => ?_) hs
  unfold State.port
  rw [hp]
  exact ⟨rfl, rfl⟩

theorem linkInv_of_slotStarted {v t : State} {i : Fin 32} (h : SlotStarted v t i) (hv : LinkInv v) : LinkInv t := by
  dsimp only [SlotStarted] at h
  obtain ⟨_, _, ht⟩ := h
  exact linkInv_of_ports (by rw [ht]) (by rw [ht]) (by rw [ht]) (by rw [ht]) hv

theorem linkInv_endSlot {s : State} (hs : LinkInv s) : LinkInv (endSlot s) := by
  have hc : LinkInv (slotClosed s) := linkInv_of_ports rfl rfl rfl rfl hs
  rcases endSlot_cases s with ⟨_, he⟩ | ⟨_, _, he⟩ | ⟨_, _, _, he⟩ | ⟨_, _, _, he⟩
  · exact linkInv_of_ports (by rw [he]) (by rw [he]) (by rw [he]) (by rw [he]) hc
  · exact linkInv_of_slotStarted he hc
  · exact linkInv_of_frameStarted he (linkInv_of_ports rfl rfl rfl rfl hs)
  · exact linkInv_of_ports (by rw [he]) (by rw [he]) (by rw [he]) (by rw [he]) hc

theorem linkInv_markFirst {s : State} (hs : LinkInv s) : LinkInv (markFirst s) := by
  obtain ⟨u, hu, ht⟩ := markFirst_spec s
  have hb := linkInv_beatTime (linkInv_of_markTaken hu hs)
  exact linkInv_of_slotStarted ht (linkInv_of_ports rfl rfl rfl rfl hb)

theorem linkInv_gapMarkFirst {s : State} (hs : LinkInv s) : LinkInv (gapMarkFirst s) := by
  obtain ⟨u, hu, ht⟩ := gapMarkFirst_spec s
  have hb := linkInv_beatTime (linkInv_of_markTaken hu hs)
  exact linkInv_of_slotStarted ht (linkInv_of_ports rfl rfl rfl rfl hb)

/-! ### Requests, deliveries and port resets -/

theorem linkInv_takeRequest {p : Port} {r : Request} {s : State} (h : canTake s p = true) (hs : LinkInv s) :
    LinkInv (takeRequest p r s) := by
  obtain ⟨_, hstate⟩ := (canTake_iff s p).1 h
  have htaken := takeRequest_spec p r s
  dsimp only [Taken] at htaken
  obtain ⟨hother, hself⟩ := htaken
  have hactive : (s.port p).state ≠ .disabled → (s.port p).state ≠ .disabled ∧ (s.port p).state ≠ .resetting := by
    intro hd
    refine ⟨hd, fun hr => ?_⟩
    simp [hr] at hstate
  have hne : ∀ {links : List Link}, links.Sublist s.links → (takeRequest p r s).links = links → ∀ q : Port, q ≠ p →
      PortUnlinked s.links q (s.port q) → PortUnlinked (takeRequest p r s).links q ((takeRequest p r s).port q) := by
    intro links hsub hl q hq hu
    rw [hother q hq, hl]
    exact hu.sublist hsub rfl id
  split at hself
  · next hnone =>
    obtain ⟨hp, ht⟩ := hself
    have hl : (takeRequest p r s).links = withDrops p ((s.port p).queue ++ [newEntry s.nextId r .waiting]) s.links := by
      rw [ht]
      rfl
    have hset : (takeRequest p r s).settings = s.settings := by rw [ht]
    have hm : (takeRequest p r s).mem = s.mem := by rw [ht]
    refine linkInv_of_sublist hs hset (hl ▸ withDrops_sublist _ _ _) (fun h => .inl (hm ▸ h)) fun q hu => ?_
    by_cases hq : q = p
    · subst hq
      have hd : (s.port q).state ≠ .disabled := by
        intro hd
        exact absurd hnone (by simpa [hd] using firstFailure_closed r _)
      obtain ⟨hd, hr⟩ := hactive hd
      rw [hp]
      exact portUnlinked_of_active _ _ hd hr
    · exact hne (withDrops_sublist _ _ _) hl q hq hu
  · next why _ =>
    split at hself
    · obtain ⟨hp, ht⟩ := hself
      have hl : (takeRequest p r s).links = s.links := by rw [ht]
      refine linkInv_congr (by rw [ht]) hl (by rw [ht]) (fun q => ?_) hs
      by_cases hq : q = p
      · subst hq
        rw [hp]
        exact ⟨rfl, rfl⟩
      · rw [hother q hq]
        exact ⟨rfl, rfl⟩
    · next hnd =>
      obtain ⟨hp, ht⟩ := hself
      have hl : (takeRequest p r s).links = s.links := by rw [ht]
      have hset : (takeRequest p r s).settings = s.settings := by rw [ht]
      have hm : (takeRequest p r s).mem = s.mem := by rw [ht]
      refine linkInv_of_sublist hs hset (hl ▸ .refl _) (fun h => .inl (hm ▸ h)) fun q hu => ?_
      by_cases hq : q = p
      · subst hq
        obtain ⟨hd, hr⟩ := hactive hnd
        rw [hp]
        exact portUnlinked_of_active _ _ hd hr
      · exact hne (.refl _) hl q hq hu

/-- A change of one port's record with the links left as they are. -/
theorem linkInv_setPort {s : State} {p : Port} {x : PortRec} (h : PortUnlinked s.links p x) (hs : LinkInv s) :
    LinkInv (s.setPort p x) := by
  refine linkInv_of_sublist hs rfl (.refl _) .inl fun q hu => ?_
  rw [port_setPort]
  split
  · next hq =>
    subst hq
    exact h
  · exact hu

/-- A port whose links are purged may close, once its queue is empty (R73, R124). -/
theorem linkInv_purgePort {s : State} {p : Port} {x : PortRec} (hx : x.state = .disabled → x.queue = [])
    (hs : LinkInv s) : LinkInv (purgePort p (s.setPort p x)) := by
  have hl : (purgePort p (s.setPort p x)).links = s.links.filter fun l => !(l.holder == p) := rfl
  refine linkInv_of_sublist hs rfl (hl ▸ List.filter_sublist) .inl fun q hu => ?_
  rw [purgePort_port, port_setPort]
  split
  · next hq =>
    subst hq
    refine ⟨fun _ l hmem hholder => ?_, fun hst => ?_⟩
    · rw [hl] at hmem
      obtain ⟨_, hne⟩ := List.mem_filter.1 hmem
      simp [hholder] at hne
    · rw [recordLoss_state] at hst
      rw [recordLoss_queue]
      exact hx hst
  · exact hu.sublist (hl ▸ List.filter_sublist) (by simp) (by simp)

theorem linkInv_deliver (p : Port) {s : State} (hs : LinkInv s) : LinkInv (deliver p s) := by
  rcases deliver_cases p s with ⟨_, h⟩ | ⟨e, rest, r, _, hst, hq, _, h⟩
  · rw [h]
    exact hs
  · obtain ⟨_, _, _, hu⟩ := (linkInv_iff s).1 hs
    have hnd : (s.port p).state ≠ .disabled := by
      intro hd
      have hnil := (hu p).queue hd
      rw [hq] at hnil
      cases hnil
    rw [h]
    split
    · exact linkInv_purgePort (fun _ => rfl) hs
    · exact linkInv_setPort (portUnlinked_of_active _ _ hnd hst) hs

theorem linkInv_startReset (p : Port) {s : State} (hs : LinkInv s) : LinkInv (startReset p s) := by
  by_cases hst : (s.port p).state = .resetting
  · rw [startReset_resetting p s hst]
    exact hs
  · have h := startReset_spec p s hst
    dsimp only [ResetStarted] at h
    obtain ⟨hp, hother, ht⟩ := h
    have hl : (startReset p s).links = s.links.filter fun l => !(l.holder == p) := by rw [ht]
    refine linkInv_of_sublist hs (by rw [ht]) (hl ▸ List.filter_sublist) (fun h => .inl ?_) fun q hu => ?_
    · rw [ht] at h
      exact h
    · by_cases hq : q = p
      · subst hq
        refine ⟨fun _ l hmem hholder => ?_, fun hst => ?_⟩
        · rw [hl] at hmem
          obtain ⟨_, hne⟩ := List.mem_filter.1 hmem
          simp [hholder] at hne
        · rw [hp] at hst
          cases hst
      · rw [hother q hq]
        exact hu.sublist (hl ▸ List.filter_sublist) rfl id

theorem linkInv_endReset (p : Port) {s : State} (hs : LinkInv s) : LinkInv (endReset p s) := by
  rcases endReset_cases p s with ⟨_, hd, h⟩ | ⟨_, h⟩
  · obtain ⟨hst, _⟩ := (resetDrained_iff s p).1 hd
    obtain ⟨_, _, _, hu⟩ := (linkInv_iff s).1 hs
    rw [h]
    refine linkInv_of_ports rfl rfl rfl rfl (linkInv_setPort ?_ hs)
    exact ⟨fun _ => (hu p).links (.inr hst), fun _ => rfl⟩
  · rw [h]
    exact hs

/-! ### Responses and the wedge -/

theorem linkInv_of_windowAfter {u t : State} (h : WindowAfter u t) (hu : LinkInv u) : LinkInv t := by
  dsimp only [WindowAfter] at h
  exact linkInv_of_ports (by rw [h]) (by rw [h]) (by rw [h]) (by rw [h]) hu

/-- A port whose record changes with the links closing. -/
theorem linkInv_of_setPort {s u : State} {p : Port} {x : PortRec} (hs : LinkInv s) (hset : u.settings = s.settings)
    (hl : u.links.Sublist s.links) (hm : u.mem.state = s.mem.state) (hp : u.ports = s.ports)
    (hst : x.state = (s.port p).state) (hq : (s.port p).queue = [] → x.queue = []) : LinkInv (u.setPort p x) := by
  have hport : ∀ r : Port, u.port r = s.port r := fun r => by
    unfold State.port
    rw [hp]
  refine linkInv_of_sublist hs hset hl (fun h => .inl (hm ▸ h)) fun r =>
    portUnlinked_of_port (t := u.setPort p x) (p := p) hl ?_ ?_ ?_ r
  · rw [port_setPort_self]
    exact hst
  · rw [port_setPort_self]
    exact hq
  · intro r hr
    rw [port_setPort_ne _ _ hr, hport r]

theorem linkInv_matched (b : BeatRecord) (rest : List BeatRecord) (bad : Bool) (element : Elem) {s : State}
    (hs : LinkInv s) : LinkInv (matched s b rest bad element) := by
  unfold matched
  dsimp only
  refine linkInv_of_setPort hs rfl List.filter_sublist rfl rfl rfl fun hq => ?_
  rw [hq]
  rfl

theorem linkInv_readFailed (b : BeatRecord) (rest : List BeatRecord) {s : State} (hs : LinkInv s) :
    LinkInv (readFailed s b rest) := by
  unfold readFailed
  dsimp only
  refine linkInv_of_setPort hs rfl (withDrops_sublist _ _ _) rfl rfl rfl fun hq => ?_
  rw [hq]
  rfl

theorem linkInv_takeResponse (status : MemStatus) (element : Elem) {s : State} (hs : LinkInv s) :
    LinkInv (takeResponse status element s) := by
  have ht := takeResponse_taken status element s
  generalize takeResponse status element s = t at ht ⊢
  cases ht with
  | discarded => exact hs
  | owed _ | stray _ _ => exact linkInv_of_ports rfl rfl rfl rfl hs
  | unclaimed b rest _ _ _ =>
    exact linkInv_of_windowAfter (grantMaint_spec _) (linkInv_of_ports rfl rfl rfl rfl hs)
  | matched b rest bad element _ _ =>
    exact linkInv_of_windowAfter (grantMaint_spec _) (linkInv_matched b rest bad element hs)
  | answered b rest a old new clamped _ _ _ =>
    unfold readAnswered
    exact linkInv_of_setPort hs rfl (.refl _) rfl rfl rfl id
  | failed b rest _ _ => exact linkInv_of_windowAfter (grantMaint_spec _) (linkInv_readFailed b rest hs)

theorem takeWedge_links (s : State) : (takeWedge s).links = [] := by
  obtain ⟨_, hw⟩ := takeWedge_spec s
  dsimp only [WindowAfter] at hw
  rw [hw]

theorem linkInv_takeWedge {s : State} (hs : LinkInv s) : LinkInv (takeWedge s) := by
  have hl := takeWedge_links s
  have hset : (takeWedge s).settings = s.settings := takeWedge_settings s
  have hsub : (takeWedge s).links.Sublist s.links := by
    rw [hl]
    exact List.nil_sublist _
  refine linkInv_of_sublist hs hset hsub (fun _ => .inr hl) fun p h => ?_
  rw [(takeWedge_spec s).1 p]
  have hq : (s.port p).queue = [] → (wedgedPort s p).queue = [] := fun hq => by
    unfold wedgedPort
    dsimp only
    rw [hq]
    rfl
  exact h.sublist hsub rfl hq

/-! ### Every happening -/

theorem linkInv_pinReset (s : State) : LinkInv (pinReset s) := by
  rw [linkInv_iff]
  refine ⟨.inl rfl, .nil _ _, fun _ => rfl, fun p => ⟨fun _ _ h => absurd h List.not_mem_nil, fun _ => ?_⟩⟩
  have hp := pinReset_port s p
  rw [hp]
  rfl

theorem linkInv_disablePort (p : Port) {s : State} (hs : LinkInv s) : LinkInv (disablePort p s) := by
  obtain ⟨_, _, _, hu⟩ := (linkInv_iff s).1 hs
  rcases disablePort_cases p s with ⟨_, hq, h⟩ | ⟨_, _, h⟩ | ⟨_, h⟩
  · rw [h]
    exact linkInv_purgePort (fun _ => hq) hs
  · rw [h]
    exact linkInv_setPort (portUnlinked_of_active _ _ (by simp) (by simp)) hs
  · rw [h]
    exact linkInv_setPort ((hu p).sublist (.refl _) rfl id) hs

theorem portUnlinked_enablePort {links : List Link} {p : Port} {x : PortRec} (h : PortUnlinked links p x) :
    PortUnlinked links p (enablePort x) := by
  rw [enablePort_eq]
  by_cases hst : x.state = .halting ∨ x.state = .disabled
  · simp only [if_pos hst]
    exact portUnlinked_of_active _ _ (by simp) (by simp)
  · simp only [if_neg hst]
    exact h.sublist (.refl _) rfl id

/-- Of the links of a holder, at most one is the youngest (R62). -/
theorem heldBy_youngest_le {links : List Link} (hn : links.Nodup) (p : Port) :
    heldBy p (links.filter fun l => isYoungestOfHolder links l) ≤ 1 := by
  have hlast : ∀ l : Link, l.holder = p → isYoungestOfHolder links l = true →
      (links.filter fun x => x.holder == p).getLast? = some l := by
    intro l hl hy
    unfold isYoungestOfHolder at hy
    rw [hl] at hy
    exact beq_iff_eq.1 hy
  unfold heldBy
  rw [List.countP_filter]
  cases hy : (links.filter fun x => x.holder == p).getLast? with
  | none =>
    refine le_of_eq_of_le (List.countP_eq_zero.2 fun l _ h => ?_) (Nat.zero_le 1)
    rw [Bool.and_eq_true, beq_iff_eq] at h
    simp [hlast l h.1 h.2] at hy
  | some k =>
    refine (List.countP_mono_left (q := (· == k)) fun l _ h => ?_).trans (List.nodup_iff_count_le_one.1 hn k)
    rw [Bool.and_eq_true, beq_iff_eq] at h
    have hk := (hlast l h.1 h.2).symm.trans hy
    simpa using hk

/-- Settings of the same LINK_LIMIT and GRANULE. -/
theorem linkInv_setSettings {s : State} {x : Settings} (hlim : x.linkLimit = s.settings.linkLimit)
    (hg : x.granule = s.settings.granule) (hs : LinkInv s) : LinkInv (s.setSettings x) := by
  obtain ⟨hl, hok, hw, hu⟩ := (linkInv_iff s).1 hs
  rw [linkInv_iff, setSettings_settings, hlim, hg]
  exact ⟨hl, hok, hw, hu⟩

/-- A write of any setting but LINK_LIMIT and GRANULE stores it. -/
theorem linkInv_settingStored {number : Nat} (value : Half) {s : State} (h2 : number ≠ 2)
    (hg : number = 4 → value.toNat = s.settings.granule) (hs : LinkInv s) : LinkInv (settingStored number value s) := by
  refine linkInv_setSettings ?_ ?_ hs
  · rw [storeSetting_linkLimit, if_neg h2]
  · rw [storeSetting_granule]
    split
    · next h4 => exact hg h4
    · rfl

/-- A write of LINK_LIMIT or GRANULE that leaves of the links what the new values allow. -/
theorem linkInv_limits {s t : State} (hlim : t.settings.linkLimit = 1 ∨ t.settings.linkLimit = 2)
    (hok : LinksOk t.settings.linkLimit t.settings.granule t.links) (hsub : t.links.Sublist s.links)
    (hm : t.mem.state = s.mem.state) (hp : ∀ p : Port, OnlyLoss (s.port p) (t.port p)) (hs : LinkInv s) :
    LinkInv t := by
  obtain ⟨_, _, hw, hu⟩ := (linkInv_iff s).1 hs
  rw [linkInv_iff]
  refine ⟨hlim, hok, fun h => ?_, fun p => (hu p).sublist hsub ?_ fun hq => ?_⟩
  · exact List.eq_nil_of_subset_nil (hw (hm ▸ h) ▸ hsub.subset)
  · rw [hp p]
  · rw [hp p, hq]

/-- LINK_LIMIT lowered to 1 leaves each holder its youngest link (R62). -/
theorem linkInv_closeOlder {value : Half} {s : State} (hv : value.toNat = 1) (hs : LinkInv s) :
    LinkInv (closeOlder (settingStored 2 value s)) := by
  obtain ⟨_, hok, _⟩ := (linkInv_iff s).1 hs
  have hl : (closeOlder (settingStored 2 value s)).links = s.links.filter fun l => isYoungestOfHolder s.links l := by
    unfold closeOlder
    rw [closeWhere_links]
    simp
  have hset : (closeOlder (settingStored 2 value s)).settings = storeSetting s.settings 2 value.toNat := rfl
  have hlim : (closeOlder (settingStored 2 value s)).settings.linkLimit = 1 := by
    rw [hset, storeSetting_linkLimit, if_pos rfl, hv]
  have hg : (closeOlder (settingStored 2 value s)).settings.granule = s.settings.granule := by
    rw [hset, storeSetting_granule, if_neg (by decide)]
  refine linkInv_limits (s := s) (.inl hlim) ?_ (hl ▸ List.filter_sublist) rfl (fun p => onlyLoss_closeWhere _ _ _ p) hs
  rw [hlim, hg, hl]
  obtain ⟨hsize, _, hd, hsound⟩ := hok.sublist (List.filter_sublist (p := fun l => isYoungestOfHolder s.links l))
  exact ⟨hsize, heldBy_youngest_le (nodup_of_linksDistinct hok.distinct), hd, hsound⟩

theorem linkInv_settingWritten {number : Nat} {value : Half} {s : State} (hv : SettingRange number value.toNat)
    (hs : LinkInv s) : LinkInv (settingWritten number value s) := by
  obtain ⟨hlim, hok, _⟩ := (linkInv_iff s).1 hs
  rcases settingWritten_cases number value s with ⟨rfl, _, _, h⟩ | ⟨rfl, _, h⟩ | ⟨rfl, hlt, h⟩ | ⟨rfl, _, h⟩ |
    ⟨rfl, h⟩ | ⟨_, h2, h4, _, h⟩
  · rw [h]
    exact linkInv_frameStart (linkInv_of_ports rfl rfl rfl rfl (linkInv_settingStored value (by simp) (by simp) hs))
  · rw [h]
    exact linkInv_of_ports rfl rfl rfl rfl (linkInv_settingStored value (by simp) (by simp) hs)
  · rw [h]
    exact linkInv_closeOlder (by omega) hs
  · rw [h]
    have hl : (purgeAll (settingStored 4 value s)).links = [] := by simp [purgeAll]
    have hkept : (purgeAll (settingStored 4 value s)).settings.linkLimit = s.settings.linkLimit :=
      (storeSetting_linkLimit _ _ _).trans (if_neg (by decide))
    refine linkInv_limits (s := s) (by rwa [hkept]) ?_ (hl ▸ List.nil_sublist _) rfl (fun p => onlyLoss_closeWhere _ _ _ p) hs
    rw [hl]
    exact .nil _ _
  · rw [h]
    exact linkInv_of_ports rfl rfl rfl rfl (linkInv_settingStored value (by simp) (by simp) hs)
  · rw [h]
    by_cases hn : number = 2
    · subst hn
      have hnew : (settingStored 2 value s).settings.linkLimit = value.toNat :=
        (storeSetting_linkLimit _ _ _).trans (if_pos rfl)
      have hkept : (settingStored 2 value s).settings.granule = s.settings.granule :=
        (storeSetting_granule _ _ _).trans (if_neg (by decide))
      have hle := h2 rfl
      refine linkInv_limits (s := s) ?_ ?_ (.refl _) rfl (fun _ => .refl _) hs
      · rw [hnew]
        omega
      · rw [hnew, hkept]
        exact ⟨hok.size, fun p => (hok.held p).trans hle, hok.distinct, hok.sound⟩
    · exact linkInv_settingStored value hn h4 hs

theorem linkInv_act {s t : State} (h : Act s t) (hs : LinkInv s) : LinkInv t := by
  cases h with
  | framed _ | counted _ | raised _ | maintReq _ | noticeTaken | shadow _ _ _ | swap _ _ | commit _
  | cancel | enterGap _ _ _ | drain _ _ => exact linkInv_of_ports rfl rfl rfl rfl hs
  | recovery _ => exact linkInv_of_sublist hs rfl (.refl _) (fun h => by cases h) fun _ h => h
  | firstFrame _ => exact linkInv_frameStart (linkInv_of_ports rfl rfl rfl rfl hs)
  | line p _ | presented p _ =>
    obtain ⟨_, _, _, hu⟩ := (linkInv_iff s).1 hs
    exact linkInv_setPort ((hu p).sublist (.refl _) rfl id) hs
  | portReset p => exact linkInv_startReset p hs
  | portResetEnd p => exact linkInv_endReset p hs
  | frameStart _ _ => exact linkInv_frameStart hs
  | gapMarkFirst _ => exact linkInv_gapMarkFirst hs
  | slotEnd _ => exact linkInv_endSlot hs
  | markFirst _ => exact linkInv_markFirst hs
  | beat _ => exact linkInv_beatTime hs
  | response status element => exact linkInv_takeResponse status element hs
  | wedge _ => exact linkInv_takeWedge hs
  | maintGrant => exact linkInv_of_windowAfter (grantMaint_spec s) hs
  | delivery p => exact linkInv_deliver p hs
  | drops p => exact linkInv_takeDrops p hs
  | taken p r h => exact linkInv_takeRequest h hs
  | enable p =>
    obtain ⟨_, _, _, hu⟩ := (linkInv_iff s).1 hs
    exact linkInv_setPort (portUnlinked_enablePort (hu p)) hs
  | disable p => exact linkInv_disablePort p hs
  | purgePort p => exact linkInv_closeWhere _ _ hs
  | purgeAll => exact linkInv_closeWhere _ _ hs
  | cleared =>
    refine linkInv_congr (s := s) rfl rfl rfl (fun p => ?_) hs
    have hp : (clearAll s).port p = clearPort (s.port p) := port_mapPorts s (fun _ x => clearPort x) p
    rw [hp]
    exact ⟨rfl, rfl⟩
  | setting number value _ hv => exact linkInv_settingWritten hv hs
  | enterStopped _ _ =>
    have h := enterStopped_spec s
    exact linkInv_of_ports (by rw [h]) (by rw [h]) (by rw [h]) (by rw [h]) hs

/-- Settles O8: links only close, but for the LINKED READ beat, which makes room for the one it opens. -/
theorem linkTableLawsKeptByEveryStep : Obligations.LinkTableLawsKeptByEveryStep := fun _ _ hs h =>
  step_keeps (P := LinkInv) (fun _ _ ha => linkInv_act ha) (fun s _ => linkInv_pinReset s) (fun _ _ h => h) hs h

end Sys2Proof.Proofs
end

section
/-! PROOF. What ties the outstanding list and the atomic record to the entries of the queues (R101, R105, R119, R133, R136). -/

namespace Sys2Proof.Proofs

open Sys2Proof Sys2Proof.Machine Sys2Proof.Safety

/-! ### The laws, over queues, beats and record -/

/-- The queues of a state. -/
abbrev queues (s : State) (p : Port) : List Entry := (s.port p).queue

/-- The identities of a queue's entries. -/
abbrev ids (q : List Entry) : List Nat := q.map Entry.id

/-- The entry is in PARTIAL or ISSUED (R119). -/
def Busy (e : Entry) : Prop := e.state = .partly ∨ e.state = .issued

/-- Identities and beat numbers are below n, and differ (log 11). -/
structure Numbered (n : Nat) (q : Port → List Entry) (out : List BeatRecord) (links : List Link) : Prop where
  below : ∀ p : Port, ∀ e ∈ q p, e.id < n
  distinct : ∀ p : Port, (q p).Pairwise fun e f => e.id ≠ f.id
  apart : ∀ p r : Port, p ≠ r → ∀ e ∈ q p, ∀ f ∈ q r, e.id ≠ f.id
  serial : ∀ b ∈ out, b.serial < n
  serials : out.Pairwise fun b c => b.serial ≠ c.serial
  opened : ∀ l ∈ links, l.openedBy < n

/-- What beats, record and entries say of each other (R101, R105, R119, R133, R136). -/
structure Tied (q : Port → List Entry) (out : List BeatRecord) (a : Option AtomicRecord) : Prop where
  partly : ∀ p : Port, ∀ e ∈ q p, e.state = .partly → isBurst e.req.kind = true ∨ isAtomic e.req.kind = true
  beat : ∀ b ∈ out, ∃ e ∈ q b.port, e.id = b.entry ∧ Busy e
  read : ∀ b ∈ out, b.kind = .atomicRead → ∃ r, a = some r ∧ r.port = b.port ∧ r.entry = b.entry
  record : ∀ r, a = some r → ∃ e ∈ q r.port, e.id = r.entry ∧ e.state = .partly ∧ isAtomic e.req.kind = true
  issued : ∀ p : Port, ∀ e ∈ q p, e.state = .issued → ∃ b ∈ out, b.port = p ∧ b.entry = e.id

theorem hasEntry_iff (s : State) (p : Port) (id : Nat) (f : Entry → Bool) :
    hasEntry s p id f = true ↔ ∃ e ∈ queues s p, e.id = id ∧ f e = true := by
  unfold hasEntry
  simp only [List.any_eq_true, Bool.and_eq_true, beq_iff_eq]

theorem busy_iff (e : Entry) : (e.state == .partly || e.state == .issued) = true ↔ Busy e := by
  unfold Busy
  simp only [Bool.or_eq_true, beq_iff_eq]

theorem queueInv_iff (s : State) :
    QueueInv s ↔ Numbered s.nextId (queues s) s.mem.outstanding s.links ∧ Tied (queues s) s.mem.outstanding s.atomic := by
  constructor
  · rintro ⟨hbelow, hdistinct, hapart, hserial, hserials, hopened, hpartly, hbeat, hread, hrecord, hissued⟩
    refine ⟨⟨hbelow, hdistinct, hapart, hserial, hserials, hopened⟩, hpartly, fun b hb => ?_, fun b hb hk => ?_,
      fun r hr => ?_, fun p e he hs => ?_⟩
    · simpa only [hasEntry_iff, busy_iff] using hbeat b hb
    · simpa only [Option.any_eq_true, Bool.and_eq_true, beq_iff_eq] using hread b hb hk
    · rw [hr, Option.all_some, hasEntry_iff] at hrecord
      simpa only [Bool.and_eq_true, beq_iff_eq] using hrecord
    · simpa only [List.any_eq_true, Bool.and_eq_true, beq_iff_eq] using hissued p e he hs
  · rintro ⟨⟨hbelow, hdistinct, hapart, hserial, hserials, hopened⟩, hpartly, hbeat, hread, hrecord, hissued⟩
    refine ⟨hbelow, hdistinct, hapart, hserial, hserials, hopened, hpartly, fun b hb => ?_, fun b hb hk => ?_, ?_,
      fun p e he hs => ?_⟩
    · simpa only [hasEntry_iff, busy_iff] using hbeat b hb
    · simpa only [Option.any_eq_true, Bool.and_eq_true, beq_iff_eq] using hread b hb hk
    · cases ha : s.atomic with
      | none => rfl
      | some r =>
        rw [Option.all_some, hasEntry_iff]
        simpa only [Bool.and_eq_true, beq_iff_eq] using hrecord r ha
    · simpa only [List.any_eq_true, Bool.and_eq_true, beq_iff_eq] using hissued p e he hs

/-- Entries of one identity are one entry of one port. -/
theorem Numbered.unique {n : Nat} {q : Port → List Entry} {out : List BeatRecord} {links : List Link}
    (h : Numbered n q out links) {p r : Port} {e f : Entry} (he : e ∈ q p) (hf : f ∈ q r) (hid : e.id = f.id) :
    p = r ∧ e = f := by
  have hpr : p = r := by
    by_contra hne
    exact h.apart p r hne e he f hf hid
  subst hpr
  have hn : ((q p).map Entry.id).Nodup := List.pairwise_map.2 (h.distinct p)
  exact ⟨rfl, List.inj_on_of_nodup_map hn he hf hid⟩

/-! ### Identities -/

theorem mem_ids {q q' : List Entry} (h : (ids q').Sublist (ids q)) {e : Entry} (he : e ∈ q') : ∃ d ∈ q, d.id = e.id :=
  List.mem_map.1 (h.subset (List.mem_map_of_mem he))

theorem ids_changed {id : Nat} {f : Entry → Entry} (hf : ∀ e, (f e).id = e.id) (q : List Entry) :
    ids (changed id f q) = ids q := by
  unfold ids changed
  rw [List.map_map]
  refine List.map_congr_left fun e _ => ?_
  rw [Function.comp_apply]
  split
  · exact hf e
  · rfl

theorem ids_settleDrops (q : List Entry) : ids (settleDrops q) = ids q := by
  induction q with
  | nil => rfl
  | cons e rest ih =>
    unfold settleDrops
    unfold ids at ih ⊢
    split
    · rw [List.map_cons, ih, List.map_cons]
    · split
      · rw [List.map_cons, ih, List.map_cons]
      · rfl

theorem ids_filterMap {g : Entry → Option Entry} (hg : ∀ e e', g e = some e' → e'.id = e.id) (q : List Entry) :
    (ids (q.filterMap g)).Sublist (ids q) := by
  induction q with
  | nil => exact .slnil
  | cons e rest ih =>
    cases he : g e with
    | none =>
      rw [List.filterMap_cons_none he]
      exact ih.cons _
    | some e' =>
      rw [List.filterMap_cons_some he]
      unfold ids at *
      rw [List.map_cons, List.map_cons, hg e e' he]
      exact ih.cons_cons _

section
variable {n n' : Nat} {q q' : Port → List Entry} {out out' : List BeatRecord} {links links' : List Link}

/-- No entry and no beat is new. -/
theorem Numbered.shrink (h : Numbered n q out links) (hn : n ≤ n') (hq : ∀ p : Port, (ids (q' p)).Sublist (ids (q p)))
    (ho : (out'.map BeatRecord.serial).Sublist (out.map BeatRecord.serial)) (hl : ∀ l ∈ links', l.openedBy < n') :
    Numbered n' q' out' links' := by
  refine ⟨fun p e he => ?_, fun p => ?_, fun p r hpr e he f hf => ?_, fun b hb => ?_, ?_, hl⟩
  · obtain ⟨d, hd, hid⟩ := mem_ids (hq p) he
    have hlt := h.below p d hd
    omega
  · have hd := h.distinct p
    rw [← List.pairwise_map (f := Entry.id) (R := (· ≠ ·))] at hd ⊢
    exact hd.sublist (hq p)
  · obtain ⟨d, hd, hid⟩ := mem_ids (hq p) he
    obtain ⟨d', hd', hid'⟩ := mem_ids (hq r) hf
    rw [← hid, ← hid']
    exact h.apart p r hpr d hd d' hd'
  · obtain ⟨c, hc, hserial⟩ := List.mem_map.1 (ho.subset (List.mem_map_of_mem hb))
    have hlt := h.serial c hc
    omega
  · have hs := h.serials
    rw [← List.pairwise_map (f := BeatRecord.serial) (R := (· ≠ ·))] at hs ⊢
    exact hs.sublist ho

/-- A beat of the number n is new. -/
theorem Numbered.beat (h : Numbered n q out links) {b : BeatRecord} (hb : b.serial = n) :
    Numbered (n + 1) q (out ++ [b]) links := by
  obtain ⟨hbelow, hdistinct, hapart, hserial, hserials, hopened⟩ := h
  refine ⟨fun p e he => (hbelow p e he).trans (Nat.lt_succ_self n), hdistinct, hapart, fun c hc => ?_, ?_,
    fun l hl => (hopened l hl).trans (Nat.lt_succ_self n)⟩
  · rcases List.mem_append.1 hc with hc | hc
    · exact (hserial c hc).trans (Nat.lt_succ_self n)
    · rw [List.mem_singleton.1 hc, hb]
      exact Nat.lt_succ_self n
  · rw [List.pairwise_append]
    refine ⟨hserials, List.pairwise_singleton _ _, fun c hc d hd => ?_⟩
    rw [List.mem_singleton.1 hd, hb]
    exact Nat.ne_of_lt (hserial c hc)

/-- An entry of the identity n is new, at port p. -/
theorem Numbered.entry (h : Numbered n q out links) {p : Port} {e : Entry} (he : e.id = n) (hp : q' p = q p ++ [e])
    (ho : ∀ r : Port, r ≠ p → q' r = q r) : Numbered (n + 1) q' out links := by
  obtain ⟨hbelow, hdistinct, hapart, hserial, hserials, hopened⟩ := h
  have hmem : ∀ r : Port, ∀ d ∈ q' r, d ∈ q r ∨ (r = p ∧ d = e) := by
    intro r d hd
    by_cases hr : r = p
    · subst hr
      rw [hp] at hd
      rcases List.mem_append.1 hd with hd | hd
      · exact .inl hd
      · exact .inr ⟨rfl, List.mem_singleton.1 hd⟩
    · rw [ho r hr] at hd
      exact .inl hd
  refine ⟨fun r d hd => ?_, fun r => ?_, fun r r' hr d hd d' hd' => ?_,
    fun b hb => (hserial b hb).trans (Nat.lt_succ_self n), hserials, fun l hl => (hopened l hl).trans (Nat.lt_succ_self n)⟩
  · rcases hmem r d hd with hd | ⟨_, rfl⟩
    · exact (hbelow r d hd).trans (Nat.lt_succ_self n)
    · rw [he]
      exact Nat.lt_succ_self n
  · by_cases hr : r = p
    · subst hr
      rw [hp, List.pairwise_append]
      refine ⟨hdistinct r, List.pairwise_singleton _ _, fun d hd d' hd' => ?_⟩
      rw [List.mem_singleton.1 hd', he]
      exact Nat.ne_of_lt (hbelow r d hd)
    · rw [ho r hr]
      exact hdistinct r
  · rcases hmem r d hd with hd | ⟨hrp, rfl⟩ <;> rcases hmem r' d' hd' with hd' | ⟨hrp', rfl⟩
    · exact hapart r r' hr d hd d' hd'
    · rw [he]
      exact Nat.ne_of_lt (hbelow r d hd)
    · rw [he]
      exact Nat.ne_of_gt (hbelow r' d' hd')
    · exact absurd (hrp.trans hrp'.symm) hr

end

/-! ### Ties -/

/-- What the ties see of an entry. -/
structure Alike (e e' : Entry) : Prop where
  id : e'.id = e.id
  state : e'.state = e.state
  kind : e'.req.kind = e.req.kind

theorem Alike.refl (e : Entry) : Alike e e := ⟨rfl, rfl, rfl⟩

theorem Alike.busy {e e' : Entry} (h : Alike e e') : Busy e' ↔ Busy e := by
  unfold Busy
  rw [h.state]

/-- The entry e of port p is named by a beat or by the record. -/
def Named (out : List BeatRecord) (a : Option AtomicRecord) (p : Port) (e : Entry) : Prop :=
  (∃ b ∈ out, b.port = p ∧ b.entry = e.id) ∨ ∃ r, a = some r ∧ r.port = p ∧ r.entry = e.id

section
variable {q q' : Port → List Entry} {out : List BeatRecord} {a : Option AtomicRecord}

/-- Queues with the same PARTIAL and ISSUED entries, as far as they are named, are tied alike. -/
theorem Tied.transfer (h : Tied q out a)
    (back : ∀ p : Port, ∀ e' ∈ q' p, Busy e' → ∃ e ∈ q p, Alike e e')
    (forth : ∀ p : Port, ∀ e ∈ q p, Busy e → Named out a p e → ∃ e' ∈ q' p, Alike e e') : Tied q' out a := by
  refine ⟨fun p e' he' hs => ?_, fun b hb => ?_, h.read, fun r hr => ?_, fun p e' he' hs => ?_⟩
  · obtain ⟨e, he, hal⟩ := back p e' he' (.inl hs)
    rw [hal.kind]
    exact h.partly p e he (hal.state ▸ hs)
  · obtain ⟨e, he, hid, hbusy⟩ := h.beat b hb
    obtain ⟨e', he', hal⟩ := forth b.port e he hbusy (.inl ⟨b, hb, rfl, hid.symm⟩)
    exact ⟨e', he', hal.id.trans hid, hal.busy.2 hbusy⟩
  · obtain ⟨e, he, hid, hs, hk⟩ := h.record r hr
    obtain ⟨e', he', hal⟩ := forth r.port e he (.inl hs) (.inr ⟨r, hr, rfl, hid.symm⟩)
    exact ⟨e', he', hal.id.trans hid, hal.state.trans hs, by rwa [hal.kind]⟩
  · obtain ⟨e, he, hal⟩ := back p e' he' (.inr hs)
    rw [hal.id]
    exact h.issued p e he (hal.state ▸ hs)

/-- A LINK DROP that takes effect was WAITING, and is READY_TO_ANSWER (R93). -/
theorem busy_of_mem_settleDrops {l : List Entry} {e : Entry} (h : e ∈ settleDrops l) (hb : Busy e) : e ∈ l := by
  rcases mem_settleDrops h with h | ⟨d, _, _, _, rfl⟩
  · exact h
  · rcases hb with hb | hb <;> cases hb

theorem mem_settleDrops_of_busy {l : List Entry} {e : Entry} (h : e ∈ l) (hb : Busy e) : e ∈ settleDrops l := by
  induction l with
  | nil => cases h
  | cons d rest ih =>
    unfold settleDrops
    split
    · rcases List.mem_cons.1 h with rfl | h
      · exact List.mem_cons_self ..
      · exact List.mem_cons_of_mem _ (ih h)
    · split
      · next hd =>
        rcases List.mem_cons.1 h with rfl | h
        · rcases hb with hb | hb <;> rw [hd.2] at hb <;> cases hb
        · exact List.mem_cons_of_mem _ (ih h)
      · exact h

/-- A settled queue is tied as it was. -/
theorem Tied.settle (h : Tied q out a) {p : Port} (hp : q' p = settleDrops (q p))
    (ho : ∀ r : Port, r ≠ p → q' r = q r) : Tied q' out a := by
  refine h.transfer (fun r e he hb => ⟨e, ?_, .refl e⟩) fun r e he hb _ => ⟨e, ?_, .refl e⟩
  · by_cases hr : r = p
    · subst hr
      rw [hp] at he
      exact busy_of_mem_settleDrops he hb
    · rwa [ho r hr] at he
  · by_cases hr : r = p
    · subst hr
      rw [hp]
      exact mem_settleDrops_of_busy he hb
    · rwa [ho r hr]

/-- Beats that name the same entries. -/
theorem Tied.map_beats (h : Tied q out a) {f : BeatRecord → BeatRecord}
    (hf : ∀ b, (f b).port = b.port ∧ (f b).entry = b.entry ∧ (f b).kind = b.kind) : Tied q (out.map f) a := by
  refine ⟨h.partly, fun b hb => ?_, fun b hb hk => ?_, h.record, fun p e he hs => ?_⟩
  · obtain ⟨c, hc, rfl⟩ := List.mem_map.1 hb
    obtain ⟨hport, hentry, _⟩ := hf c
    rw [hport, hentry]
    exact h.beat c hc
  · obtain ⟨c, hc, rfl⟩ := List.mem_map.1 hb
    obtain ⟨hport, hentry, hkind⟩ := hf c
    rw [hport, hentry]
    exact h.read c hc (hkind ▸ hk)
  · obtain ⟨b, hb, hport, hentry⟩ := h.issued p e he hs
    obtain ⟨hport', hentry', _⟩ := hf b
    exact ⟨f b, List.mem_map_of_mem hb, hport'.trans hport, hentry'.trans hentry⟩

/-- A record that names the same entry. -/
theorem Tied.map_record (h : Tied q out a) {f : AtomicRecord → AtomicRecord}
    (hf : ∀ r, (f r).port = r.port ∧ (f r).entry = r.entry) : Tied q out (a.map f) := by
  refine ⟨h.partly, h.beat, fun b hb hk => ?_, fun r hr => ?_, h.issued⟩
  · obtain ⟨r, rfl, hport, hentry⟩ := h.read b hb hk
    obtain ⟨hport', hentry'⟩ := hf r
    exact ⟨f r, rfl, hport'.trans hport, hentry'.trans hentry⟩
  · obtain ⟨r', ha, rfl⟩ := Option.map_eq_some_iff.1 hr
    obtain ⟨hport', hentry'⟩ := hf r'
    rw [hport', hentry']
    exact h.record r' ha

/-- A beat for the entry of an identity at port p, which becomes PARTIAL or ISSUED with it. -/
theorem Tied.place {b : BeatRecord} {a' : Option AtomicRecord} {f : Entry → Entry} (h : Tied q out a)
    (hp : q' b.port = changed b.entry f (q b.port)) (ho : ∀ r : Port, r ≠ b.port → q' r = q r)
    (hf : ∀ e, (f e).id = e.id ∧ Busy (f e)) (hmem : ∃ e ∈ q b.port, e.id = b.entry)
    (hpartly : ∀ e ∈ q b.port, e.id = b.entry → (f e).state = .partly →
      isBurst (f e).req.kind = true ∨ isAtomic (f e).req.kind = true)
    (hread : ∀ c ∈ out ++ [b], c.kind = .atomicRead → ∃ r, a' = some r ∧ r.port = c.port ∧ r.entry = c.entry)
    (hrecord : ∀ r, a' = some r → ∃ e ∈ q' r.port, e.id = r.entry ∧ e.state = .partly ∧ isAtomic e.req.kind = true) :
    Tied q' (out ++ [b]) a' := by
  have hto : ∀ r : Port, ∀ e ∈ q r, Busy e → ∃ e' ∈ q' r, e'.id = e.id ∧ Busy e' := by
    intro r e he hb
    by_cases hr : r = b.port
    · subst hr
      rw [hp]
      refine ⟨_, List.mem_map_of_mem he, ?_⟩
      split
      · exact hf e
      · exact ⟨rfl, hb⟩
    · rw [ho r hr]
      exact ⟨e, he, rfl, hb⟩
  have hfrom : ∀ r : Port, ∀ e' ∈ q' r, e' ∈ q r ∨ (r = b.port ∧ ∃ e ∈ q r, e' = f e ∧ e.id = b.entry) := by
    intro r e' he'
    by_cases hr : r = b.port
    · subst hr
      rw [hp] at he'
      obtain ⟨e, he, ⟨rfl, hid⟩ | ⟨rfl, _⟩⟩ := mem_changed he'
      · exact .inr ⟨rfl, e, he, rfl, hid⟩
      · exact .inl he
    · rw [ho r hr] at he'
      exact .inl he'
  refine ⟨fun r e' he' hs => ?_, fun c hc => ?_, hread, hrecord, fun r e' he' hs => ?_⟩
  · rcases hfrom r e' he' with he | ⟨rfl, e, he, rfl, hid⟩
    · exact h.partly r e' he hs
    · exact hpartly e he hid hs
  · rcases List.mem_append.1 hc with hc | hc
    · obtain ⟨e, he, hid, hb⟩ := h.beat c hc
      obtain ⟨e', he', hid', hb'⟩ := hto c.port e he hb
      exact ⟨e', he', hid'.trans hid, hb'⟩
    · rw [List.mem_singleton.1 hc, hp]
      obtain ⟨e, he, hid⟩ := hmem
      obtain ⟨hfid, hbusy⟩ := hf e
      refine ⟨f e, ?_, hfid.trans hid, hbusy⟩
      have hmap := List.mem_map_of_mem (f := fun x : Entry => if x.id = b.entry then f x else x) he
      rwa [if_pos hid] at hmap
  · rcases hfrom r e' he' with he | ⟨rfl, e, he, rfl, hid⟩
    · obtain ⟨c, hc, hport, hentry⟩ := h.issued r e' he hs
      exact ⟨c, List.mem_append_left _ hc, hport, hentry⟩
    · exact ⟨b, List.mem_append_right _ (List.mem_singleton_self b), rfl, ((hf e).1.trans hid).symm⟩

end

/-- The oldest beat leaves the list with its answer: an entry that still waits for another beat or for its atomic update
stays as it is, and any other is ISSUED no more. -/
theorem Tied.answer {n : Nat} {q q' : Port → List Entry} {b : BeatRecord} {rest : List BeatRecord} {links : List Link}
    {a : Option AtomicRecord} {g : Entry → Option Entry} {waits : Prop} (hN : Numbered n q (b :: rest) links)
    (h : Tied q (b :: rest) a) (hw : waits ↔ (∃ c ∈ rest, c.entry = b.entry) ∨ ∃ r, a = some r ∧ r.entry = b.entry)
    (hne : ∀ e, e.id ≠ b.entry → g e = some e)
    (hwaits : waits → ∀ e, e.id = b.entry → ∃ e', g e = some e' ∧ Alike e e')
    (hdone : ¬waits → ∀ e e', e.id = b.entry → g e = some e' →
      e'.state ≠ .issued ∧ (e'.state = .partly → e.state = .partly ∧ e'.req.kind = e.req.kind))
    (hq : q' b.port = (q b.port).filterMap g) (ho : ∀ r : Port, r ≠ b.port → q' r = q r) : Tied q' rest a := by
  have hkept : ∀ p : Port, ∀ e ∈ q p, (e.id = b.entry → waits) → ∃ e' ∈ q' p, Alike e e' := by
    intro p e he hid
    by_cases hp : p = b.port
    · subst hp
      rw [hq]
      by_cases heq : e.id = b.entry
      · obtain ⟨e', hg, hal⟩ := hwaits (hid heq) e heq
        exact ⟨e', List.mem_filterMap.2 ⟨e, he, hg⟩, hal⟩
      · exact ⟨e, List.mem_filterMap.2 ⟨e, he, hne e heq⟩, .refl e⟩
    · rw [ho p hp]
      exact ⟨e, he, .refl e⟩
  have hfrom : ∀ p : Port, ∀ e' ∈ q' p, Busy e' →
      ∃ e ∈ q p, (e'.state = .partly → e.state = .partly ∧ e'.req.kind = e.req.kind) ∧
        (e'.state = .issued → Alike e e' ∧ (p = b.port → e.id = b.entry → waits)) := by
    intro p e' he' _
    by_cases hp : p = b.port
    · subst hp
      rw [hq] at he'
      obtain ⟨e, he, hg⟩ := List.mem_filterMap.1 he'
      refine ⟨e, he, ?_⟩
      by_cases heq : e.id = b.entry
      · by_cases hwait : waits
        · obtain ⟨e'', hg', hal⟩ := hwaits hwait e heq
          obtain rfl := Option.some.inj (hg.symm.trans hg')
          exact ⟨fun hs => ⟨hal.state ▸ hs, hal.kind⟩, fun _ => ⟨hal, fun _ _ => hwait⟩⟩
        · obtain ⟨hni, hpart⟩ := hdone hwait e e' heq hg
          exact ⟨hpart, fun hs => absurd hs hni⟩
      · obtain rfl := Option.some.inj ((hne e heq).symm.trans hg)
        exact ⟨fun hs => ⟨hs, rfl⟩, fun _ => ⟨.refl e, fun _ hid => absurd hid heq⟩⟩
    · rw [ho p hp] at he'
      exact ⟨e', he', fun hs => ⟨hs, rfl⟩, fun _ => ⟨.refl e', fun hp' => absurd hp' hp⟩⟩
  refine ⟨fun p e' he' hs => ?_, fun c hc => ?_, fun c hc => h.read c (List.mem_cons_of_mem _ hc), fun r hr => ?_,
    fun p e' he' hs => ?_⟩
  · obtain ⟨e, he, hpart, _⟩ := hfrom p e' he' (.inl hs)
    obtain ⟨hse, hke⟩ := hpart hs
    rw [hke]
    exact h.partly p e he hse
  · obtain ⟨e, he, hid, hb⟩ := h.beat c (List.mem_cons_of_mem _ hc)
    obtain ⟨e', he', hal⟩ := hkept c.port e he fun heq => hw.2 (.inl ⟨c, hc, hid.symm.trans heq⟩)
    exact ⟨e', he', hal.id.trans hid, hal.busy.2 hb⟩
  · obtain ⟨e, he, hid, hs, hk⟩ := h.record r hr
    obtain ⟨e', he', hal⟩ := hkept r.port e he fun heq => hw.2 (.inr ⟨r, hr, hid.symm.trans heq⟩)
    exact ⟨e', he', hal.id.trans hid, hal.state.trans hs, by rwa [hal.kind]⟩
  · obtain ⟨e, he, _, hissued⟩ := hfrom p e' he' (.inr hs)
    obtain ⟨hal, hwait⟩ := hissued hs
    have hse : e.state = .issued := hal.state ▸ hs
    rw [hal.id]
    obtain ⟨c, hc, hport, hentry⟩ := h.issued p e he hse
    rcases List.mem_cons.1 hc with rfl | hc
    · rcases hw.1 (hwait hport.symm hentry.symm) with ⟨d, hd, hde⟩ | ⟨r, hr, hre⟩
      · obtain ⟨e2, he2, hid2, _⟩ := h.beat d (List.mem_cons_of_mem _ hd)
        obtain ⟨hdp, _⟩ := hN.unique he2 he ((hid2.trans hde).trans hentry)
        exact ⟨d, hd, hdp, hde.trans hentry⟩
      · obtain ⟨e2, he2, hid2, hs2, _⟩ := h.record r hr
        obtain ⟨_, rfl⟩ := hN.unique he2 he ((hid2.trans hre).trans hentry)
        rw [hse] at hs2
        cases hs2
    · exact ⟨c, hc, hport, hentry⟩

/-- With no beat outstanding and no update, no entry is PARTIAL or ISSUED but a PARTIAL burst. -/
theorem tied_of_idle {q : Port → List Entry}
    (hpartly : ∀ p : Port, ∀ e ∈ q p, e.state = .partly → isBurst e.req.kind = true ∨ isAtomic e.req.kind = true)
    (hissued : ∀ p : Port, ∀ e ∈ q p, e.state ≠ .issued) : Tied q [] none :=
  ⟨hpartly, fun _ h => absurd h List.not_mem_nil, fun _ h => absurd h List.not_mem_nil, fun _ h => (nomatch h),
    fun p e he hs => absurd hs (hissued p e he)⟩

/-! ### States -/

/-- Queues, beats and record as before; links only close. -/
theorem queueInv_congr {s t : State} (hn : t.nextId = s.nextId) (hq : ∀ p : Port, queues t p = queues s p)
    (ho : t.mem.outstanding = s.mem.outstanding) (ha : t.atomic = s.atomic)
    (hl : ∀ l ∈ t.links, ∃ k ∈ s.links, k.openedBy = l.openedBy) (hs : QueueInv s) : QueueInv t := by
  obtain ⟨hN, hT⟩ := (queueInv_iff s).1 hs
  have hqs : queues t = queues s := funext hq
  rw [queueInv_iff, hn, hqs, ho, ha]
  refine ⟨⟨hN.below, hN.distinct, hN.apart, hN.serial, hN.serials, fun l hl' => ?_⟩, hT⟩
  obtain ⟨k, hk, hkl⟩ := hl l hl'
  rw [← hkl]
  exact hN.opened k hk

theorem queueInv_of_ports {s t : State} (hn : t.nextId = s.nextId) (hp : t.ports = s.ports)
    (ho : t.mem.outstanding = s.mem.outstanding) (ha : t.atomic = s.atomic) (hl : t.links = s.links)
    (hs : QueueInv s) : QueueInv t := by
  refine queueInv_congr hn (fun p => ?_) ho ha (fun l h => ⟨l, hl ▸ h, rfl⟩) hs
  unfold queues State.port
  rw [hp]

/-- A change of one port that keeps its queue. -/
theorem queueInv_setPort {s : State} {p : Port} {x : PortRec} (hq : x.queue = (s.port p).queue) (hs : QueueInv s) :
    QueueInv (s.setPort p x) := by
  refine queueInv_congr (s := s) rfl (fun r => ?_) rfl rfl (fun l h => ⟨l, h, rfl⟩) hs
  unfold queues
  rw [port_setPort]
  split
  · next hr => rw [hr, hq]
  · rfl

theorem queueInv_closeWhere (f : Link → Bool) (c : LossCause) {s : State} (hs : QueueInv s) :
    QueueInv (closeWhere f c s) := by
  refine queueInv_congr (s := s) rfl (fun p => ?_) rfl rfl (fun l h => ?_) hs
  · unfold queues
    rw [onlyLoss_closeWhere f c s p]
  · rw [closeWhere_links] at h
    exact ⟨l, List.filter_sublist.subset h, rfl⟩

/-- One queue changes, to entries of the same identities, tied as before; links only close. -/
theorem queueInv_of_queue {s t : State} {p : Port} (hn : t.nextId = s.nextId)
    (hids : (ids (queues t p)).Sublist (ids (queues s p))) (hne : ∀ r : Port, r ≠ p → queues t r = queues s r)
    (ho : (t.mem.outstanding.map BeatRecord.serial).Sublist (s.mem.outstanding.map BeatRecord.serial))
    (hl : ∀ l ∈ t.links, l ∈ s.links) (hT : Tied (queues t) t.mem.outstanding t.atomic) (hs : QueueInv s) :
    QueueInv t := by
  obtain ⟨hN, _⟩ := (queueInv_iff s).1 hs
  rw [queueInv_iff, hn]
  refine ⟨hN.shrink (Nat.le_refl _) (fun r => ?_) ho fun l h => hN.opened l (hl l h), hT⟩
  by_cases hr : r = p
  · rw [hr]
    exact hids
  · rw [hne r hr]

theorem queueInv_takeDrops (p : Port) {s : State} (hs : QueueInv s) : QueueInv (takeDrops p s) := by
  obtain ⟨_, hT⟩ := (queueInv_iff s).1 hs
  have hself : queues (takeDrops p s) p = settleDrops (queues s p) := by
    unfold queues
    rw [takeDrops_port, if_pos rfl]
  have hne : ∀ r : Port, r ≠ p → queues (takeDrops p s) r = queues s r := by
    intro r hr
    unfold queues
    rw [takeDrops_port, if_neg hr]
  have hmem : (takeDrops p s).mem = s.mem := by rw [takeDrops_frame]
  have hatomic : (takeDrops p s).atomic = s.atomic := by rw [takeDrops_frame]
  refine queueInv_of_queue (p := p) (by rw [takeDrops_frame]) ?_ hne ?_ (fun l h => ?_) ?_ hs
  · rw [hself, ids_settleDrops]
  · rw [hmem]
  · rw [takeDrops_links] at h
    exact mem_of_mem_withDrops h
  · rw [hmem, hatomic]
    exact hT.settle hself hne

/-! ### A beat time -/

theorem mem_changed_self {q : List Entry} {e : Entry} {f : Entry → Entry} (h : e ∈ q) : f e ∈ changed e.id f q := by
  have hmap := List.mem_map_of_mem (f := fun x : Entry => if x.id = e.id then f x else x) h
  rwa [if_pos rfl] at hmap

/-- The links behind a LINKED READ beat are those of before and the new one (R65 to R67). -/
theorem mem_openLink {p : Port} {a : Word} {bytes serial : Nat} {s : State} {l : Link}
    (h : l ∈ (openLink p a bytes serial s).links) : l ∈ s.links ∨ l.openedBy = serial := by
  have hkept : ∀ {f : Link → Bool} {c : LossCause} {u : State}, l ∈ (closeWhere f c u).links → l ∈ u.links := by
    intro f c u h
    rw [closeWhere_links] at h
    exact List.filter_sublist.subset h
  cases ho : opensLink s p a with
  | false =>
    rw [openLink_of_held ho, setLinks_links] at h
    rcases List.mem_append.1 h with h | h
    · exact .inl (List.filter_sublist.subset h)
    · rw [List.mem_singleton.1 h]
      exact .inr rfl
  | true =>
    rw [openLink_of_opens ho, setLinks_links] at h
    rcases List.mem_append.1 h with h | h
    · left
      have hr : l ∈ (replaceStep p s).links := by
        rcases evictStep_cases (replaceStep p s) with he | ⟨_, _, _, he⟩
        · rwa [he] at h
        · rw [he] at h
          exact hkept h
      rcases replaceStep_cases p s with he | ⟨_, _, _, _, he⟩
      · rwa [he] at hr
      · rw [he] at hr
        exact hkept hr
    · rw [List.mem_singleton.1 h]
      exact .inr rfl

section
variable {v : State} {p : Port} {entry index : Nat} {kind : BeatKind} {a : Word} {bytes : Nat} {value : Option Elem}
  {f : Entry → Entry}

theorem placeBeat_queue_self :
    queues (placeBeat p entry index kind a bytes value f v) p = settleDrops (changed entry f (queues v p)) := by
  unfold queues
  rw [placeBeat_port_self p entry index kind a bytes value f v]

theorem placeBeat_queue_ne {r : Port} (hr : r ≠ p) :
    queues (placeBeat p entry index kind a bytes value f v) r = queues v r := by
  unfold queues
  rw [placeBeat_port_ne p entry index kind a bytes value f v hr]

/-- The beat that is placed. -/
abbrev beatPlaced (p : Port) (entry index : Nat) (kind : BeatKind) (a : Word) (v : State) : BeatRecord :=
  ⟨p, entry, index, kind, a, deadlineAtIssue v, v.nextId⟩

theorem placeBeat_opened {l : Link} (h : l ∈ (placeBeat p entry index kind a bytes value f v).links) :
    l ∈ v.links ∨ l.openedBy = v.nextId := by
  rw [placeBeat_links p entry index kind a bytes value f v] at h
  have hshown := mem_of_mem_withDrops h
  by_cases hk : kind = .linkedRead
  · subst hk
    unfold beatShown at hshown
    rw [issueBeat_eq] at hshown
    have hopened := mem_openLink (s := beatDriven p entry index .linkedRead a bytes value v) hshown
    rwa [beatDriven_links] at hopened
  · exact .inl ((beatShown_links_sublist hk).subset hshown)

theorem placeBeat_numbered (hf : ∀ e, (f e).id = e.id) (hv : QueueInv v) :
    Numbered (v.nextId + 1) (queues (placeBeat p entry index kind a bytes value f v))
      (v.mem.outstanding ++ [beatPlaced p entry index kind a v])
      (placeBeat p entry index kind a bytes value f v).links := by
  obtain ⟨hN, _⟩ := (queueInv_iff v).1 hv
  refine (hN.beat (b := beatPlaced p entry index kind a v) rfl).shrink (Nat.le_refl _) (fun r => ?_) (.refl _)
    fun l hl => ?_
  · by_cases hr : r = p
    · rw [hr, placeBeat_queue_self, ids_settleDrops, ids_changed hf]
    · rw [placeBeat_queue_ne hr]
  · rcases placeBeat_opened hl with h | h
    · exact (hN.opened l h).trans (Nat.lt_succ_self _)
    · rw [h]
      exact Nat.lt_succ_self _

/-- The ties behind a placed beat, for the record that is then there. -/
theorem placeBeat_tied {a' : Option AtomicRecord} (hf : ∀ e, (f e).id = e.id ∧ Busy (f e))
    (hmem : ∃ e ∈ queues v p, e.id = entry)
    (hpartly : ∀ e ∈ queues v p, e.id = entry → (f e).state = .partly →
      isBurst (f e).req.kind = true ∨ isAtomic (f e).req.kind = true)
    (hread : ∀ c ∈ v.mem.outstanding ++ [beatPlaced p entry index kind a v], c.kind = .atomicRead →
      ∃ r, a' = some r ∧ r.port = c.port ∧ r.entry = c.entry)
    (hrecord : ∀ r, a' = some r → r.port = p ∧
      ∃ e ∈ changed entry f (queues v p), e.id = r.entry ∧ e.state = .partly ∧ isAtomic e.req.kind = true)
    (hv : QueueInv v) :
    Tied (queues (placeBeat p entry index kind a bytes value f v))
      (v.mem.outstanding ++ [beatPlaced p entry index kind a v]) a' := by
  obtain ⟨_, hT⟩ := (queueInv_iff v).1 hv
  have hplaced := hT.place (b := beatPlaced p entry index kind a v) (a' := a') (f := f)
    (q' := Function.update (queues v) p (changed entry f (queues v p))) (Function.update_self ..)
    (fun r hr => Function.update_of_ne hr ..) hf hmem hpartly hread fun r hr => by
      obtain ⟨rfl, hex⟩ := hrecord r hr
      rw [Function.update_self]
      exact hex
  refine hplaced.settle (p := p) ?_ fun r hr => ?_
  · rw [placeBeat_queue_self, Function.update_self]
  · rw [placeBeat_queue_ne hr, Function.update_of_ne hr]

/-- With the record empty behind it. -/
theorem queueInv_placeBeat (hf : ∀ e, (f e).id = e.id ∧ Busy (f e)) (hmem : ∃ e ∈ queues v p, e.id = entry)
    (hpartly : ∀ e ∈ queues v p, e.id = entry → (f e).state = .partly →
      isBurst (f e).req.kind = true ∨ isAtomic (f e).req.kind = true)
    (hk : kind ≠ .atomicRead) (ha : v.atomic = none) (hv : QueueInv v) :
    QueueInv (placeBeat p entry index kind a bytes value f v) := by
  have hnone : ∀ c ∈ v.mem.outstanding, c.kind ≠ .atomicRead := by
    intro c hc hck
    obtain ⟨_, hT⟩ := (queueInv_iff v).1 hv
    obtain ⟨r, hr, _⟩ := hT.read c hc hck
    rw [ha] at hr
    cases hr
  have hN := placeBeat_numbered (p := p) (entry := entry) (index := index) (kind := kind) (a := a) (bytes := bytes)
    (value := value) (fun e => (hf e).1) hv
  have hT := placeBeat_tied (index := index) (kind := kind) (a := a) (bytes := bytes) (value := value) (a' := none)
    hf hmem hpartly (fun c hc hck => by
      rcases List.mem_append.1 hc with hc | hc
      · exact absurd hck (hnone c hc)
      · rw [List.mem_singleton.1 hc] at hck
        exact absurd hck hk) (fun r hr => by cases hr) hv
  have hframe := placeBeat_frame p entry index kind a bytes value f v
  have hid : (placeBeat p entry index kind a bytes value f v).nextId = v.nextId + 1 := by rw [hframe]
  have hout : (placeBeat p entry index kind a bytes value f v).mem.outstanding =
      v.mem.outstanding ++ [beatPlaced p entry index kind a v] := by rw [hframe]
  have hat : (placeBeat p entry index kind a bytes value f v).atomic = none := by
    rw [hframe]
    exact ha
  rw [queueInv_iff, hid, hout, hat]
  exact ⟨hN, hT⟩

end

/-- The head of a port that is considered is WAITING or PARTIAL, and in its queue. -/
theorem Considers.entry {s : State} {p : Port} {e : Entry} (h : Considers s p e) :
    e ∈ queues s p ∧ (e.state = .waiting ∨ e.state = .partly) := by
  obtain ⟨_, _, hissued, hmem, _⟩ := issueHead_some h.head
  exact ⟨hmem, (fullyIssued_eq_false e).1 hissued⟩

theorem queueInv_linkConsumed (p : Port) (e : Entry) {s : State} (hs : QueueInv s) : QueueInv (linkConsumed p e s) := by
  refine queueInv_congr (s := s) rfl (fun r => ?_) rfl rfl (fun l h => ⟨l, List.filter_sublist.subset h, rfl⟩) hs
  unfold queues
  by_cases hr : r = p
  · rw [hr, linkConsumed_port_self]
  · rw [linkConsumed_port_ne hr]

theorem busy_afterBurstBeat (e : Entry) : Busy (afterBurstBeat e) := by
  unfold afterBurstBeat Busy
  dsimp only
  split
  · exact .inl rfl
  · exact .inr rfl

/-- The entry of an identity in a queue is one (log 11). -/
theorem eq_of_id {s : State} (hs : QueueInv s) {p : Port} {e d : Entry} (he : e ∈ queues s p) (hd : d ∈ queues s p)
    (hid : d.id = e.id) : d = e := by
  obtain ⟨hN, _⟩ := (queueInv_iff s).1 hs
  obtain ⟨_, h⟩ := hN.unique hd he hid
  exact h

theorem queueInv_placeAtomicRead {u : State} {p : Port} {e : Entry} (hc : Considers u p e)
    (hk : e.req.kind = .swap ∨ e.req.kind = .boundedAdd) (hu : QueueInv u) : QueueInv (placeAtomicRead p e u) := by
  obtain ⟨_, _, ha⟩ := (pathFree_iff u).1 hc.free
  obtain ⟨hmem, _⟩ := hc.entry
  have hatomic : isAtomic e.req.kind = true := by rcases hk with hk | hk <;> rw [hk] <;> rfl
  have hnone : ∀ c ∈ u.mem.outstanding, c.kind ≠ .atomicRead := by
    intro c hc hck
    obtain ⟨_, hT⟩ := (queueInv_iff u).1 hu
    obtain ⟨r, hr, _⟩ := hT.read c hc hck
    rw [ha] at hr
    cases hr
  have hN := placeBeat_numbered (p := p) (entry := e.id) (index := 0) (kind := .atomicRead) (a := e.req.addr)
    (bytes := 4) (value := none) (f := afterAtomicRead) (fun _ => rfl) hu
  have hT := placeBeat_tied (p := p) (entry := e.id) (index := 0) (kind := .atomicRead) (a := e.req.addr)
    (bytes := 4) (value := none) (f := afterAtomicRead) (a' := some (recordOf p e)) (fun _ => ⟨rfl, .inl rfl⟩)
    ⟨e, hmem, rfl⟩ (fun d hd hid _ => by
      rw [eq_of_id hu hmem hd hid]
      exact .inr hatomic)
    (fun c hc hck => by
      rcases List.mem_append.1 hc with hc | hc
      · exact absurd hck (hnone c hc)
      · rw [List.mem_singleton.1 hc]
        exact ⟨_, rfl, rfl, rfl⟩)
    (fun r hr => by
      obtain rfl := Option.some.inj hr
      exact ⟨rfl, _, mem_changed_self hmem, rfl, rfl, hatomic⟩) hu
  have hframe := placeBeat_frame p e.id 0 .atomicRead e.req.addr 4 none afterAtomicRead u
  have hid : (placeBeat p e.id 0 .atomicRead e.req.addr 4 none afterAtomicRead u).nextId = u.nextId + 1 := by rw [hframe]
  have hout : (placeBeat p e.id 0 .atomicRead e.req.addr 4 none afterAtomicRead u).mem.outstanding =
      u.mem.outstanding ++ [beatPlaced p e.id 0 .atomicRead e.req.addr u] := by rw [hframe]
  rw [placeAtomicRead_eq hc.head, queueInv_iff, setAtomic_nextId, setAtomic_mem, setAtomic_links, setAtomic_atomic, hid,
    hout]
  exact ⟨hN, hT⟩

theorem queueInv_places {u t : State} {p : Port} (h : Places u t p) (hp : PathInv u) (hu : QueueInv u) : QueueInv t := by
  cases h with
  | burst _ e hc hk =>
    obtain ⟨_, _, ha⟩ := (pathFree_iff u).1 hc.free
    obtain ⟨hmem, _⟩ := hc.entry
    rw [placeBurst_eq]
    refine queueInv_placeBeat (fun e => ⟨rfl, busy_afterBurstBeat e⟩) ⟨e, hmem, rfl⟩ (fun d hd hid _ => ?_)
      (burstKind_ne_atomicRead e) ha hu
    rw [eq_of_id hu hmem hd hid]
    left
    change isBurst e.req.kind = true
    rcases hk with hk | hk <;> rw [hk] <;> rfl
  | linkedRead _ e hc _ =>
    obtain ⟨_, _, ha⟩ := (pathFree_iff u).1 hc.free
    obtain ⟨hmem, _⟩ := hc.entry
    rw [placeLinkedRead_eq]
    exact queueInv_placeBeat (fun _ => ⟨rfl, .inr rfl⟩) ⟨e, hmem, rfl⟩ (fun _ _ _ hs => by cases hs) (by simp) ha hu
  | success _ e hc _ =>
    obtain ⟨_, _, ha⟩ := (pathFree_iff u).1 hc.free
    obtain ⟨hmem, _⟩ := hc.entry
    have hmem' : e ∈ queues (linkConsumed p e u) p := by
      unfold queues
      rw [linkConsumed_port_self]
      exact hmem
    rw [judgeSuccess_eq]
    exact queueInv_placeBeat (fun _ => ⟨rfl, .inr rfl⟩) ⟨e, hmem', rfl⟩ (fun _ _ _ hs => by cases hs) (by simp) ha
      (queueInv_linkConsumed p e hu)
  | atomicRead _ e hc hk => exact queueInv_placeAtomicRead hc hk hu
  | owed a old new clamped ha hph _ _ =>
    have hempty : u.mem.outstanding = [] := by
      obtain ⟨_, _, _, _, _, hhold, _⟩ := hp
      unfold atomicHold at hhold
      simpa [ha, hph] using hhold
    obtain ⟨hN, hT⟩ := (queueInv_iff u).1 hu
    obtain ⟨e, he, hid, _⟩ := hT.record a ha
    have hv : QueueInv (owedTaken a u) := by
      rw [queueInv_iff]
      refine ⟨hN, hT.partly, hT.beat, fun b hb => ?_, fun _ h => (nomatch h), hT.issued⟩
      change b ∈ u.mem.outstanding at hb
      rw [hempty] at hb
      cases hb
    unfold placeAtomicWrite
    exact queueInv_placeBeat (fun _ => ⟨rfl, .inr rfl⟩) ⟨e, he, hid⟩ (fun _ _ _ hs => by cases hs) (by simp) rfl hv

/-- A judged entry was WAITING, so that no beat names it: only bursts and atomic updates are ever PARTIAL (R119). -/
theorem queueInv_fails {u v : State} (h : Fails u v) (hu : QueueInv u) : QueueInv v := by
  cases h with
  | failed p e w hc hk =>
    obtain ⟨_, hT⟩ := (queueInv_iff u).1 hu
    obtain ⟨hmem, hst⟩ := hc.entry
    have hnb : ¬Busy e := by
      have hwaiting : e.state = .waiting := hst.resolve_right fun hs => by
        have hkind := hT.partly p e hmem hs
        rw [hk] at hkind
        rcases hkind with h | h <;> cases h
      rintro (hb | hb) <;> rw [hwaiting] at hb <;> cases hb
    have hself := afterFailure_port_self u p e w
    have hne : ∀ r : Port, r ≠ p → queues (afterFailure u p e w) r = queues u r := by
      intro r hr
      unfold queues afterFailure
      dsimp only
      rw [setLinks_port, port_setPort_ne _ _ hr]
    refine queueInv_of_queue (s := u) (p := p) rfl ?_ hne (.refl _) (fun l hl => ?_) ?_ hu
    · unfold queues
      rw [hself, ids_settleDrops, ids_changed (f := fun x => { x with state := .ready w }) fun _ => rfl]
    · have hl' := mem_of_mem_withDrops hl
      split at hl'
      · exact List.filter_sublist.subset hl'
      · exact hl'
    · refine Tied.transfer (q := queues u) hT (fun r e' he' hb => ⟨e', ?_, .refl e'⟩) fun r d hd hb _ => ⟨d, ?_, .refl d⟩
      · by_cases hr : r = p
        · subst hr
          unfold queues at he'
          rw [hself] at he'
          obtain ⟨d, hd, ⟨rfl, _⟩ | ⟨rfl, _⟩⟩ := mem_changed (busy_of_mem_settleDrops he' hb)
          · rcases hb with hb | hb <;> cases hb
          · exact hd
        · rwa [hne r hr] at he'
      · by_cases hr : r = p
        · subst hr
          unfold queues
          rw [hself]
          refine mem_settleDrops_of_busy ?_ hb
          have hmap := List.mem_map_of_mem (f := fun x : Entry => if x.id = e.id then { x with state := .ready w } else x) hd
          rwa [if_neg fun hid => hnb (eq_of_id hu hmem hd hid ▸ hb)] at hmap
        · rwa [hne r hr]

theorem queueInv_endBeat (o : Option Port) {v : State} (hv : QueueInv v) : QueueInv (endBeat o v) := by
  refine queueInv_congr (endBeat_nextId o v) (fun p => ?_) (by rw [endBeat_mem]) (endBeat_atomic o v)
    (fun l h => ⟨l, endBeat_links o v ▸ h, rfl⟩) hv
  unfold queues
  rw [endBeat_port]

theorem queueInv_atDecision {s : State} (hs : QueueInv s) : QueueInv (atDecision s) := by
  obtain ⟨hN, hT⟩ := (queueInv_iff s).1 hs
  rw [queueInv_iff, atDecision_outstanding]
  refine ⟨hN.shrink (Nat.le_refl _) (fun _ => .refl _) ?_ hN.opened, hT.map_beats fun _ => ⟨rfl, rfl, rfl⟩⟩
  unfold agedBeats
  rw [List.map_map]
  exact .refl _

/-- The laws of the memory path and those of the queues, which the steps keep together. -/
def TiedInv (s : State) : Prop := PathInv s ∧ QueueInv s

theorem tiedInv_beatTime {s : State} (hs : TiedInv s) : TiedInv (beatTime s) := by
  obtain ⟨hp, hq⟩ := hs
  exact beatTime_keeps (P := TiedInv) (fun _ _ h hu => ⟨pathInv_fails h hu.1, queueInv_fails h hu.2⟩)
    (fun _ _ _ h hu => ⟨pathInv_places h hu.1, queueInv_places h hu.1 hu.2⟩)
    (fun o _ hv => ⟨pathInv_endBeat o hv.1, queueInv_endBeat o hv.2⟩) ⟨pathInv_atDecision hp, queueInv_atDecision hq⟩

/-! ### Frames -/

theorem queueInv_atMark {s t : State} (hn : t.nextId = s.nextId) (ho : t.mem.outstanding = s.mem.outstanding)
    (ha : t.atomic = s.atomic) (hl : t.links = (agedLinks s).filter fun l => !tooOld s l)
    (hp : ∀ p : Port, t.port p = portAtMark s p) (hs : QueueInv s) : QueueInv t := by
  refine queueInv_congr hn (fun p => ?_) ho ha (fun l h => ?_) hs
  · unfold queues
    rw [hp p]
    rfl
  · rw [hl] at h
    obtain ⟨k, hk, rfl⟩ := List.mem_map.1 (List.filter_sublist.subset h)
    exact ⟨k, hk, rfl⟩

theorem queueInv_of_frameStarted {s t : State} (h : FrameStarted s t) (hs : QueueInv s) : QueueInv t := by
  dsimp only [FrameStarted] at h
  obtain ⟨_, _, _, hp, hl, _, ht⟩ := h
  exact queueInv_atMark (by rw [ht]) (by rw [ht]) (by rw [ht]) hl hp hs

theorem queueInv_frameStart {s : State} (hs : QueueInv s) : QueueInv (frameStart s) :=
  queueInv_of_frameStarted (frameStart_spec s) hs

theorem queueInv_of_markTaken {s u : State} (h : MarkTaken s u) (hs : QueueInv s) : QueueInv u := by
  dsimp only [MarkTaken] at h
  obtain ⟨hp, hl, _, hu⟩ := h
  exact queueInv_atMark (by rw [hu]) (by rw [hu]) (by rw [hu]) hl hp hs

theorem queueInv_of_slotStarted {v t : State} {i : Fin 32} (h : SlotStarted v t i) (hv : QueueInv v) : QueueInv t := by
  dsimp only [SlotStarted] at h
  obtain ⟨_, _, ht⟩ := h
  exact queueInv_of_ports (by rw [ht]) (by rw [ht]) (by rw [ht]) (by rw [ht]) (by rw [ht]) hv

theorem queueInv_slotClosed {s : State} (hs : QueueInv s) : QueueInv (slotClosed s) := by
  obtain ⟨hN, hT⟩ := (queueInv_iff s).1 hs
  rw [queueInv_iff]
  exact ⟨hN, hT.map_record (f := fun a => { a with overhanging := true }) fun _ => ⟨rfl, rfl⟩⟩

theorem queueInv_endSlot {s : State} (hs : QueueInv s) : QueueInv (endSlot s) := by
  have hc := queueInv_slotClosed hs
  rcases endSlot_cases s with ⟨_, he⟩ | ⟨_, _, he⟩ | ⟨_, _, _, he⟩ | ⟨_, _, _, he⟩
  · exact queueInv_of_ports (by rw [he]) (by rw [he]) (by rw [he]) (by rw [he]) (by rw [he]) hc
  · exact queueInv_of_slotStarted he hc
  · exact queueInv_of_frameStarted he (queueInv_of_ports rfl rfl rfl rfl rfl hc)
  · exact queueInv_of_ports (by rw [he]) (by rw [he]) (by rw [he]) (by rw [he]) (by rw [he]) hc

theorem tiedInv_of_markTaken {s u : State} (h : MarkTaken s u) (hs : TiedInv s) : TiedInv u :=
  ⟨pathInv_of_markTaken h hs.1, queueInv_of_markTaken h hs.2⟩

theorem queueInv_markFirst {s : State} (hs : TiedInv s) : QueueInv (markFirst s) := by
  obtain ⟨u, hu, ht⟩ := markFirst_spec s
  obtain ⟨_, hb⟩ := tiedInv_beatTime (tiedInv_of_markTaken hu hs)
  exact queueInv_of_slotStarted ht (queueInv_of_ports rfl rfl rfl rfl rfl (queueInv_slotClosed hb))

theorem queueInv_gapMarkFirst {s : State} (hs : TiedInv s) : QueueInv (gapMarkFirst s) := by
  obtain ⟨u, hu, ht⟩ := gapMarkFirst_spec s
  obtain ⟨_, hb⟩ := tiedInv_beatTime (tiedInv_of_markTaken hu hs)
  exact queueInv_of_slotStarted ht (queueInv_of_ports rfl rfl rfl rfl rfl hb)

/-! ### Requests, deliveries and port resets -/

/-- An entry that is new at a port, and not PARTIAL or ISSUED. -/
theorem Tied.append {q q' : Port → List Entry} {out : List BeatRecord} {a : Option AtomicRecord} (h : Tied q out a)
    {p : Port} {e : Entry} (he : ¬Busy e) (hp : q' p = q p ++ [e]) (ho : ∀ r : Port, r ≠ p → q' r = q r) :
    Tied q' out a := by
  refine h.transfer (fun r d hd hb => ⟨d, ?_, .refl d⟩) fun r d hd hb _ => ⟨d, ?_, .refl d⟩
  · by_cases hr : r = p
    · subst hr
      rw [hp] at hd
      rcases List.mem_append.1 hd with hd | hd
      · exact hd
      · rw [List.mem_singleton.1 hd] at hb
        exact absurd hb he
    · rwa [ho r hr] at hd
  · by_cases hr : r = p
    · subst hr
      rw [hp]
      exact List.mem_append_left _ hd
    · rwa [ho r hr]

/-- A request that is appended, as WAITING or as REFUSAL, with the LINK DROPs behind it settled or not. -/
theorem queueInv_of_append {s t : State} {p : Port} {e : Entry} (hid : e.id = s.nextId) (he : ¬Busy e)
    (hn : t.nextId = s.nextId + 1) (ho : t.mem.outstanding = s.mem.outstanding) (ha : t.atomic = s.atomic)
    (hl : ∀ l ∈ t.links, l ∈ s.links)
    (hp : queues t p = queues s p ++ [e] ∨ queues t p = settleDrops (queues s p ++ [e]))
    (hne : ∀ r : Port, r ≠ p → queues t r = queues s r) (hs : QueueInv s) : QueueInv t := by
  obtain ⟨hN, hT⟩ := (queueInv_iff s).1 hs
  have hself := Function.update_self p (queues s p ++ [e]) (queues s)
  have hother : ∀ r : Port, r ≠ p → Function.update (queues s) p (queues s p ++ [e]) r = queues s r :=
    fun r hr => Function.update_of_ne hr ..
  have hN' := hN.entry hid hself hother
  have hT' := hT.append he hself hother
  rw [queueInv_iff, hn, ho, ha]
  refine ⟨hN'.shrink (Nat.le_refl _) (fun r => ?_) (.refl _) fun l h => (hN.opened l (hl l h)).trans (Nat.lt_succ_self _),
    ?_⟩
  · by_cases hr : r = p
    · subst hr
      rw [hself]
      rcases hp with hp | hp
      · rw [hp]
      · rw [hp, ids_settleDrops]
    · rw [hother r hr, hne r hr]
  · rcases hp with hp | hp
    · have hqs : queues t = Function.update (queues s) p (queues s p ++ [e]) := by
        funext r
        by_cases hr : r = p
        · subst hr
          rw [hself, hp]
        · rw [hother r hr, hne r hr]
      rw [hqs]
      exact hT'
    · exact hT'.settle (by rw [hself, hp]) fun r hr => by rw [hother r hr, hne r hr]

theorem queueInv_takeRequest (p : Port) (r : Request) {s : State} (hs : QueueInv s) : QueueInv (takeRequest p r s) := by
  have htaken := takeRequest_spec p r s
  dsimp only [Taken] at htaken
  obtain ⟨hother, hself⟩ := htaken
  have hne : ∀ q : Port, q ≠ p → queues (takeRequest p r s) q = queues s q := fun q hq => by
    unfold queues
    rw [hother q hq]
  split at hself
  · obtain ⟨hp, ht⟩ := hself
    have hl : (takeRequest p r s).links = withDrops p ((s.port p).queue ++ [newEntry s.nextId r .waiting]) s.links := by
      rw [ht]
      rfl
    have hq : queues (takeRequest p r s) p = settleDrops (queues s p ++ [newEntry s.nextId r .waiting]) := by
      unfold queues
      rw [hp]
      rfl
    refine queueInv_of_append (e := newEntry s.nextId r .waiting) rfl ?_ (by rw [ht]) (by rw [ht]) (by rw [ht])
      (fun l h => mem_of_mem_withDrops (hl ▸ h)) (.inr hq) hne hs
    rintro (h | h) <;> cases h
  · next why _ =>
    split at hself
    · obtain ⟨hp, ht⟩ := hself
      have hl : (takeRequest p r s).links = s.links := by rw [ht]
      refine queueInv_congr (by rw [ht]) (fun q => ?_) (by rw [ht]) (by rw [ht]) (fun l h => ⟨l, hl ▸ h, rfl⟩) hs
      by_cases hq : q = p
      · unfold queues
        rw [hq, hp]
      · exact hne q hq
    · obtain ⟨hp, ht⟩ := hself
      have hl : (takeRequest p r s).links = s.links := by rw [ht]
      have hq : queues (takeRequest p r s) p =
          queues s p ++ [newEntry s.nextId { r with data := [] } (.refusal why)] := by
        unfold queues
        rw [hp]
        rfl
      refine queueInv_of_append (e := newEntry s.nextId { r with data := [] } (.refusal why)) rfl ?_ (by rw [ht])
        (by rw [ht]) (by rw [ht]) (fun l h => hl ▸ h) (.inl hq) hne hs
      rintro (h | h) <;> cases h

/-- An entry with a response is READY_TO_ANSWER or a REFUSAL (R122). -/
theorem not_busy_of_response {e : Entry} {r : Response} (h : e.response = some r) : ¬Busy e := by
  rintro (hs | hs)
  all_goals
    unfold Entry.response at h
    rw [hs] at h
    cases h

/-- One port's queue loses entries that no beat and no record names. -/
theorem queueInv_of_removal {s t : State} {p : Port} (hn : t.nextId = s.nextId)
    (hsub : (queues t p).Sublist (queues s p)) (hne : ∀ r : Port, r ≠ p → queues t r = queues s r)
    (ho : t.mem.outstanding = s.mem.outstanding) (ha : t.atomic = s.atomic) (hl : ∀ l ∈ t.links, l ∈ s.links)
    (hkept : ∀ e ∈ queues s p, Busy e → Named s.mem.outstanding s.atomic p e → e ∈ queues t p) (hs : QueueInv s) :
    QueueInv t := by
  obtain ⟨_, hT⟩ := (queueInv_iff s).1 hs
  refine queueInv_of_queue (p := p) hn (hsub.map _) hne (by rw [ho]) hl ?_ hs
  rw [ho, ha]
  refine hT.transfer (fun r e he _ => ⟨e, ?_, .refl e⟩) fun r e he hb hnamed => ⟨e, ?_, .refl e⟩
  · by_cases hr : r = p
    · subst hr
      exact hsub.subset he
    · rwa [hne r hr] at he
  · by_cases hr : r = p
    · subst hr
      exact hkept e he hb hnamed
    · rwa [hne r hr]

theorem queueInv_deliver (p : Port) {s : State} (hs : QueueInv s) : QueueInv (deliver p s) := by
  rcases deliver_cases p s with ⟨_, h⟩ | ⟨e, rest, r, _, _, hq, hresp, h⟩
  · rw [h]
    exact hs
  · have hkept : ∀ x : PortRec, x.queue = rest → QueueInv (s.setPort p x) := by
      intro x hx
      have hself : queues (s.setPort p x) p = rest := by
        unfold queues
        rw [port_setPort_self, hx]
      refine queueInv_of_removal (s := s) (p := p) rfl ?_ (fun r hr => ?_) rfl rfl (fun _ h => h)
        (fun d hd hb _ => ?_) hs
      · rw [hself]
        unfold queues
        rw [hq]
        exact List.sublist_cons_self ..
      · unfold queues
        rw [port_setPort_ne _ _ hr]
      · unfold queues at hd
        rw [hq] at hd
        rw [hself]
        rcases List.mem_cons.1 hd with rfl | hd
        · exact absurd hb (not_busy_of_response hresp)
        · exact hd
    rw [h]
    split
    · next hempty => exact queueInv_closeWhere _ _ (hkept _ hempty.1.symm)
    · exact hkept _ rfl

theorem queueInv_startReset (p : Port) {s : State} (hs : QueueInv s) : QueueInv (startReset p s) := by
  by_cases hst : (s.port p).state = .resetting
  · rw [startReset_resetting p s hst]
    exact hs
  · have h := startReset_spec p s hst
    dsimp only [ResetStarted] at h
    obtain ⟨hp, hother, ht⟩ := h
    obtain ⟨_, hT⟩ := (queueInv_iff s).1 hs
    have hself : queues (startReset p s) p =
        ((queues s p).filter (keptAtReset s)).map fun e => { e with marked := true } := by
      unfold queues
      rw [hp]
    have hne : ∀ r : Port, r ≠ p → queues (startReset p s) r = queues s r := fun r hr => by
      unfold queues
      rw [hother r hr]
    have hl : (startReset p s).links = s.links.filter fun l => !(l.holder == p) := by rw [ht]
    refine queueInv_of_queue (p := p) (by rw [ht]) ?_ hne (by rw [ht]) (fun l h => ?_) ?_ hs
    · rw [hself]
      unfold ids
      rw [List.map_map]
      exact List.filter_sublist.map _
    · rw [hl] at h
      exact List.filter_sublist.subset h
    · have ho : (startReset p s).mem.outstanding = s.mem.outstanding := by rw [ht]
      have ha : (startReset p s).atomic = s.atomic := by rw [ht]
      rw [ho, ha]
      refine hT.transfer (fun r e' he' _ => ?_) fun r e he hb hnamed => ?_
      · by_cases hr : r = p
        · subst hr
          rw [hself] at he'
          obtain ⟨e, he, rfl⟩ := List.mem_map.1 he'
          exact ⟨e, List.filter_sublist.subset he, rfl, rfl, rfl⟩
        · rw [hne r hr] at he'
          exact ⟨e', he', .refl e'⟩
      · by_cases hr : r = p
        · subst hr
          rw [hself]
          refine ⟨_, List.mem_map_of_mem (List.mem_filter.2 ⟨he, ?_⟩), rfl, rfl, rfl⟩
          unfold keptAtReset
          rw [(busy_iff e).2 hb, Bool.true_and, Bool.or_eq_true, List.any_eq_true, Option.any_eq_true]
          rcases hnamed with ⟨b, hb, _, hbe⟩ | ⟨a, ha, _, hae⟩
          · exact .inl ⟨b, hb, by simpa using hbe⟩
          · exact .inr ⟨a, ha, by simpa using hae⟩
        · rw [hne r hr]
          exact ⟨e, he, .refl e⟩

theorem queueInv_endReset (p : Port) {s : State} (hs : QueueInv s) : QueueInv (endReset p s) := by
  rcases endReset_cases p s with ⟨_, hd, h⟩ | ⟨_, h⟩
  · obtain ⟨_, _, hout, hat⟩ := (resetDrained_iff s p).1 hd
    rw [h]
    refine queueInv_of_ports (s := s.setPort p _) rfl rfl rfl rfl rfl ?_
    refine queueInv_of_removal (s := s) (p := p) rfl ?_ (fun r hr => ?_) rfl rfl (fun _ h => h)
      (fun e he hb hnamed => ?_) hs
    · unfold queues
      rw [port_setPort_self]
      exact List.nil_sublist _
    · unfold queues
      rw [port_setPort_ne _ _ hr]
    · rcases hnamed with ⟨b, hb, hbp, _⟩ | ⟨a, ha, hap, _⟩
      · exact absurd hbp (hout b hb)
      · rw [ha, Option.any_some, beq_eq_false_iff_ne] at hat
        exact absurd hap hat
  · rw [h]
    exact hs

/-! ### Responses and the wedge -/

theorem queueInv_of_windowAfter {u t : State} (h : WindowAfter u t) (hu : QueueInv u) : QueueInv t := by
  dsimp only [WindowAfter] at h
  exact queueInv_of_ports (by rw [h]) (by rw [h]) (by rw [h]) (by rw [h]) (by rw [h]) hu

/-- What the answer to a beat makes of the entries of its port (R128, R136, R137). -/
theorem matched_queue (s : State) (b : BeatRecord) (rest : List BeatRecord) (bad : Bool) (element : Elem) :
    ∃ g : Entry → Option Entry,
      queues (matched s b rest bad element) b.port = (queues s b.port).filterMap g ∧
        (∀ e, e.id ≠ b.entry → g e = some e) ∧ (∀ e e', g e = some e' → e'.id = e.id) ∧
        ((rest.any (fun c => c.entry == b.entry) || s.atomic.any fun a => a.entry == b.entry) = true →
          ∀ e, e.id = b.entry → ∃ e', g e = some e' ∧ Alike e e') ∧
        (¬(rest.any (fun c => c.entry == b.entry) || s.atomic.any fun a => a.entry == b.entry) = true →
          ∀ e e', e.id = b.entry → g e = some e' →
            e'.state ≠ .issued ∧ (e'.state = .partly → e.state = .partly ∧ e'.req.kind = e.req.kind)) := by
  unfold queues matched
  dsimp only
  rw [port_setPort_self]
  refine ⟨_, rfl, fun e hid => if_pos hid, fun e e' hg => ?_, fun hw e hid => ?_, fun hw e e' hid hg => ?_⟩
  · split at hg
    · cases hg
      rfl
    · split at hg
      · cases hg
        rfl
      · split at hg
        · cases hg
        · split at hg <;> cases hg <;> rfl
  · rw [if_neg (not_not.2 hid), if_pos hw]
    exact ⟨_, rfl, rfl, rfl, rfl⟩
  · rw [if_neg (not_not.2 hid), if_neg hw] at hg
    split at hg
    · cases hg
    · split at hg
      · cases hg
        exact ⟨by simp, fun h => by cases h⟩
      · next hi =>
        cases hg
        exact ⟨hi, fun hs => ⟨hs, rfl⟩⟩

theorem queueInv_matched {s : State} {b : BeatRecord} {rest : List BeatRecord} (bad : Bool) (element : Elem)
    (ho : s.mem.outstanding = b :: rest) (hs : QueueInv s) : QueueInv (matched s b rest bad element) := by
  obtain ⟨hN, hT⟩ := (queueInv_iff s).1 hs
  rw [ho] at hN hT
  obtain ⟨g, hself, hne, hid, hwaits, hdone⟩ := matched_queue s b rest bad element
  have hother : ∀ r : Port, r ≠ b.port → queues (matched s b rest bad element) r = queues s r := by
    intro r hr
    unfold queues matched
    dsimp only
    rw [port_setPort_ne _ _ hr]
    rfl
  have hids : (ids (queues (matched s b rest bad element) b.port)).Sublist (ids (queues s b.port)) := by
    rw [hself]
    exact ids_filterMap hid _
  refine queueInv_of_queue (s := s) (p := b.port) rfl hids hother ?_ (fun l h => List.filter_sublist.subset h) ?_ hs
  · rw [ho]
    exact (List.sublist_cons_self b rest).map _
  · refine Tied.answer hN hT ?_ hne hwaits hdone hself hother
    simp only [Bool.or_eq_true, List.any_eq_true, Option.any_eq_true, beq_iff_eq]
    exact Iff.rfl

/-- While an atomic read beat is the only beat outstanding, no entry is ISSUED: that of the beat is PARTIAL (R105). -/
theorem none_issued_of_atomicRead {s : State} {b : BeatRecord} (ho : s.mem.outstanding = [b]) (hk : b.kind = .atomicRead)
    (hs : QueueInv s) (p : Port) (e : Entry) (he : e ∈ queues s p) : e.state ≠ .issued := by
  obtain ⟨hN, hT⟩ := (queueInv_iff s).1 hs
  rw [ho] at hN hT
  intro hi
  obtain ⟨c, hc, _, hentry⟩ := hT.issued p e he hi
  obtain rfl := List.mem_singleton.1 hc
  obtain ⟨r, hr, _, hre⟩ := hT.read c hc hk
  obtain ⟨d, hd, hid, hpartly, _⟩ := hT.record r hr
  obtain ⟨_, rfl⟩ := hN.unique hd he ((hid.trans hre).trans hentry)
  rw [hi] at hpartly
  cases hpartly

theorem queueInv_readAnswered {s : State} {b : BeatRecord} {a : AtomicRecord} (old new : Word) (clamped : Option Bool)
    (ho : s.mem.outstanding = [b]) (hk : b.kind = .atomicRead) (ha : s.atomic = some a) (hs : QueueInv s) :
    QueueInv (readAnswered s [] a old new clamped) := by
  obtain ⟨hN, hT⟩ := (queueInv_iff s).1 hs
  have hq : queues (readAnswered s [] a old new clamped) = queues s := by
    funext r
    unfold queues readAnswered
    rw [port_setPort]
    split
    · next hr =>
      rw [hr]
      rfl
    · rfl
  have hat : (readAnswered s [] a old new clamped).atomic = some { a with phase := .writeOwed old new clamped } := rfl
  have hout : (readAnswered s [] a old new clamped).mem.outstanding = [] := rfl
  rw [queueInv_iff, hq, hat, hout]
  refine ⟨hN.shrink (Nat.le_refl _) (fun _ => .refl _) (List.nil_sublist _) hN.opened, hT.partly,
    fun _ h => absurd h List.not_mem_nil, fun _ h => absurd h List.not_mem_nil, fun r hr => ?_,
    fun p e he hi => absurd hi (none_issued_of_atomicRead ho hk hs p e he)⟩
  obtain rfl := Option.some.inj hr
  exact hT.record a ha

theorem queueInv_readFailed {s : State} {b : BeatRecord} (ho : s.mem.outstanding = [b]) (hk : b.kind = .atomicRead)
    (hs : QueueInv s) : QueueInv (readFailed s b []) := by
  obtain ⟨_, hT⟩ := (queueInv_iff s).1 hs
  have hself : ∃ g : Entry → Option Entry, queues (readFailed s b []) b.port = settleDrops ((queues s b.port).filterMap g) ∧
      ∀ e e', g e = some e' → e'.id = e.id ∧ (Busy e' → e' = e) := by
    unfold queues readFailed
    dsimp only
    rw [port_setPort_self]
    refine ⟨_, rfl, fun e e' hg => ?_⟩
    split at hg
    · cases hg
      exact ⟨rfl, fun _ => rfl⟩
    · split at hg
      · cases hg
      · cases hg
        refine ⟨rfl, ?_⟩
        rintro (h | h) <;> cases h
  obtain ⟨g, hself, hg⟩ := hself
  have hother : ∀ r : Port, r ≠ b.port → queues (readFailed s b []) r = queues s r := by
    intro r hr
    unfold queues readFailed
    dsimp only
    rw [port_setPort_ne _ _ hr]
    rfl
  have hfrom : ∀ p : Port, ∀ e ∈ queues (readFailed s b []) p, Busy e → e ∈ queues s p := by
    intro p e he hb
    by_cases hp : p = b.port
    · subst hp
      rw [hself] at he
      obtain ⟨d, hd, hde⟩ := List.mem_filterMap.1 (busy_of_mem_settleDrops he hb)
      rw [(hg d e hde).2 hb]
      exact hd
    · rwa [hother p hp] at he
  refine queueInv_of_queue (s := s) (p := b.port) rfl ?_ hother (List.nil_sublist _) (fun l h => mem_of_mem_withDrops h) ?_
    hs
  · rw [hself, ids_settleDrops]
    exact ids_filterMap (fun e e' h => (hg e e' h).1) _
  · exact tied_of_idle (fun p e he hs => hT.partly p e (hfrom p e he (.inl hs)) hs)
      fun p e he hi => none_issued_of_atomicRead ho hk hs p e (hfrom p e he (.inr hi)) hi

theorem queueInv_takeResponse (status : MemStatus) (element : Elem) {s : State} (hp : PathInv s) (hs : QueueInv s) :
    QueueInv (takeResponse status element s) := by
  have ht := takeResponse_taken status element s
  generalize takeResponse status element s = t at ht ⊢
  cases ht with
  | discarded => exact hs
  | owed _ | stray _ _ => exact queueInv_of_ports rfl rfl rfl rfl rfl hs
  | matched b rest bad element ho hk =>
    exact queueInv_of_windowAfter (grantMaint_spec _) (queueInv_matched bad element ho hs)
  | answered b rest a old new clamped ho hk ha =>
    obtain ⟨rfl, _⟩ := atomicRead_alone hp ho hk
    exact queueInv_readAnswered old new clamped ho hk ha hs
  | unclaimed b rest ho hk ha => exact absurd ha (atomicRead_alone hp ho hk).2
  | failed b rest ho hk =>
    obtain ⟨rfl, _⟩ := atomicRead_alone hp ho hk
    exact queueInv_of_windowAfter (grantMaint_spec _) (queueInv_readFailed ho hk hs)

theorem queueInv_takeWedge {s : State} (hs : QueueInv s) : QueueInv (takeWedge s) := by
  obtain ⟨hN, _⟩ := (queueInv_iff s).1 hs
  have hq : ∀ p : Port, queues (takeWedge s) p = settleDrops ((queues s p).filterMap wedgedEntry) := by
    intro p
    unfold queues
    rw [(takeWedge_spec s).1 p]
    rfl
  have hidle : ∀ p : Port, ∀ e ∈ queues (takeWedge s) p, ¬Busy e := by
    intro p e he hb
    rw [hq p] at he
    obtain ⟨d, _, hde⟩ := List.mem_filterMap.1 (busy_of_mem_settleDrops he hb)
    unfold wedgedEntry at hde
    split at hde
    · split at hde
      · cases hde
      · cases hde
        rcases hb with hb | hb <;> cases hb
    · next hn =>
      cases hde
      exact hn hb.symm
  have hid : ∀ e e', wedgedEntry e = some e' → e'.id = e.id := by
    intro e e' h
    unfold wedgedEntry at h
    split at h
    · split at h
      · cases h
      · cases h
        rfl
    · cases h
      rfl
  have hout := (takeWedge_mem s).2.1
  have hl := takeWedge_links s
  have hat : (takeWedge s).atomic = none := by
    obtain ⟨_, hw⟩ := takeWedge_spec s
    dsimp only [WindowAfter] at hw
    rw [hw]
  rw [queueInv_iff, hout, hat, hl, takeWedge_nextId]
  refine ⟨hN.shrink (Nat.le_refl _) (fun p => ?_) (List.nil_sublist _) fun _ h => absurd h List.not_mem_nil,
    tied_of_idle (fun p e he hs => absurd (.inl hs) (hidle p e he)) fun p e he hi => hidle p e he (.inr hi)⟩
  rw [hq p, ids_settleDrops]
  exact ids_filterMap hid _

/-! ### Every happening -/

theorem queueInv_pinReset (s : State) : QueueInv (pinReset s) := by
  have hq : ∀ p : Port, queues (pinReset s) p = [] := fun p => by
    unfold queues
    rw [pinReset_port]
    rfl
  have hqs : queues (pinReset s) = fun _ => [] := funext hq
  rw [queueInv_iff, hqs]
  exact ⟨⟨fun _ _ h => absurd h List.not_mem_nil, fun _ => .nil, fun _ _ _ _ h => absurd h List.not_mem_nil,
    fun _ h => absurd h List.not_mem_nil, .nil, fun _ h => absurd h List.not_mem_nil⟩,
    tied_of_idle (fun _ _ h => absurd h List.not_mem_nil) fun _ _ h => absurd h List.not_mem_nil⟩

theorem queueInv_disablePort (p : Port) {s : State} (hs : QueueInv s) : QueueInv (disablePort p s) := by
  rcases disablePort_cases p s with ⟨_, _, h⟩ | ⟨_, _, h⟩ | ⟨_, h⟩
  · rw [h]
    exact queueInv_closeWhere _ _ (queueInv_setPort rfl hs)
  · rw [h]
    exact queueInv_setPort rfl hs
  · rw [h]
    exact queueInv_setPort rfl hs

theorem queueInv_settingWritten (number : Nat) (value : Half) {s : State} (hs : QueueInv s) :
    QueueInv (settingWritten number value s) := by
  have hstored : QueueInv (settingStored number value s) := queueInv_of_ports rfl rfl rfl rfl rfl hs
  rcases settingWritten_cases number value s with ⟨_, _, _, h⟩ | ⟨_, _, h⟩ | ⟨_, _, h⟩ | ⟨_, _, h⟩ | ⟨_, h⟩ |
    ⟨_, _, _, _, h⟩ <;> rw [h]
  · exact queueInv_frameStart (queueInv_of_ports rfl rfl rfl rfl rfl hstored)
  · exact queueInv_of_ports rfl rfl rfl rfl rfl hstored
  · exact queueInv_closeWhere _ _ hstored
  · exact queueInv_closeWhere _ _ hstored
  · exact queueInv_of_ports rfl rfl rfl rfl rfl hstored
  · exact hstored

theorem queueInv_act {s t : State} (h : Act s t) (hs : TiedInv s) : QueueInv t := by
  obtain ⟨hp, hq⟩ := hs
  cases h with
  | framed _ | counted _ | raised _ | maintReq _ | recovery _ | noticeTaken | shadow _ _ _ | swap _ _ | commit _
  | cancel | enterGap _ _ _ | drain _ _ => exact queueInv_of_ports rfl rfl rfl rfl rfl hq
  | firstFrame _ => exact queueInv_frameStart (queueInv_of_ports rfl rfl rfl rfl rfl hq)
  | line p _ | presented p _ => exact queueInv_setPort rfl hq
  | portReset p => exact queueInv_startReset p hq
  | portResetEnd p => exact queueInv_endReset p hq
  | frameStart _ _ => exact queueInv_frameStart hq
  | gapMarkFirst _ => exact queueInv_gapMarkFirst ⟨hp, hq⟩
  | slotEnd _ => exact queueInv_endSlot hq
  | markFirst _ => exact queueInv_markFirst ⟨hp, hq⟩
  | beat _ => exact (tiedInv_beatTime ⟨hp, hq⟩).2
  | response status element => exact queueInv_takeResponse status element hp hq
  | wedge _ => exact queueInv_takeWedge hq
  | maintGrant => exact queueInv_of_windowAfter (grantMaint_spec s) hq
  | delivery p => exact queueInv_deliver p hq
  | drops p => exact queueInv_takeDrops p hq
  | taken p r _ => exact queueInv_takeRequest p r hq
  | enable p =>
    refine queueInv_setPort ?_ hq
    rw [enablePort_eq]
  | disable p => exact queueInv_disablePort p hq
  | purgePort p => exact queueInv_closeWhere _ _ hq
  | purgeAll => exact queueInv_closeWhere _ _ hq
  | cleared =>
    refine queueInv_congr (s := s) rfl (fun p => ?_) rfl rfl (fun l h => ⟨l, h, rfl⟩) hq
    have hp : (clearAll s).port p = clearPort (s.port p) := port_mapPorts s (fun _ x => clearPort x) p
    unfold queues
    rw [hp]
    rfl
  | setting number value _ _ => exact queueInv_settingWritten number value hq
  | enterStopped _ _ =>
    have h := enterStopped_spec s
    exact queueInv_of_ports (by rw [h]) (by rw [h]) (by rw [h]) (by rw [h]) (by rw [h]) hq

/-- Settles O60: kept together with the laws of the memory path, by which an atomic read beat is the last outstanding. -/
theorem queueLawsKeptByEveryStep : Obligations.QueueLawsKeptByEveryStep := fun _ _ hp hq h =>
  (step_keeps (P := TiedInv) (fun _ _ ha hs => ⟨pathInv_act ha hs.1, queueInv_act ha hs⟩)
    (fun s _ => ⟨pathInv_pinReset s, queueInv_pinReset s⟩) (fun _ _ h => h) ⟨hp, hq⟩ h).2

end Sys2Proof.Proofs
end

section
/-! PROOF. What the management commands do to the gate (R8 to R10, R46, R50, R51, R61, R62, R143, R144, R151, R172). -/

namespace Sys2Proof.Proofs

open Sys2Proof Sys2Proof.Machine Sys2Proof.Safety

/-! ### Happenings do not see the management port -/

theorem frameStarted_mgmt {s t : State} (h : FrameStarted s t) (m : Mgmt) :
    FrameStarted { s with mgmt := m } { t with mgmt := m } := by
  dsimp only [FrameStarted] at h ⊢
  obtain ⟨hact, hgr, hw, hp, hl, hn, ht⟩ := h
  exact ⟨hact, hgr, hw, hp, hl, hn, congrArg (fun u : State => { u with mgmt := m }) ht⟩

theorem closed_mgmt {s t : State} {f : Link → Bool} {c : LossCause} (h : Closed s t f c) (m : Mgmt) :
    Closed { s with mgmt := m } { t with mgmt := m } f c := by
  obtain ⟨hl, hp, ht⟩ := h
  exact ⟨hl, hp, congrArg (fun u : State => { u with mgmt := m }) ht⟩

theorem stopped_mgmt {s t : State} (h : Stopped s t) (m : Mgmt) : Stopped { s with mgmt := m } { t with mgmt := m } := by
  dsimp only [Stopped] at h ⊢
  exact congrArg (fun u : State => { u with mgmt := m }) h

theorem inGap_mgmt {s t : State} {x : SyncMode} (h : InGap s t x) (m : Mgmt) :
    InGap { s with mgmt := m } { t with mgmt := m } x := by
  dsimp only [InGap] at h ⊢
  exact congrArg (fun u : State => { u with mgmt := m }) h

theorem resetStarted_mgmt {s t : State} {p : Port} (h : ResetStarted s t p) (m : Mgmt) :
    ResetStarted { s with mgmt := m } { t with mgmt := m } p := by
  dsimp only [ResetStarted] at h ⊢
  obtain ⟨hp, ho, ht⟩ := h
  exact ⟨hp, ho, congrArg (fun u : State => { u with mgmt := m }) ht⟩

/-! ### WRITE_SETTING -/

/-- A WRITE_SETTING with a value in range (R169, R172). -/
theorem exec_writeSetting_inRange {s : State} (h : Listening s) {number : Byte} {value : Half}
    (hv : SettingRange number.toNat value.toNat) (fill : Nat) :
    exec (writeSettingCommand number value fill) s =
      .next
        { settingWritten number.toNat value (clocked (8 * (4 + fill)) s) with
          mgmt := answered s 0x02 (8 * (4 + fill)) .accepted (number :: twoBytes value.toNat) } := by
  rw [exec_writeSettingCommand]
  exact congrArg _ (command_of_reply h 0x02 (number :: halfBytes value) fill (writeSettingBody_of_inRange hv _)
    (settingWritten_mgmt _ _ _))

/-- A setting without an effect at its write (R172). -/
theorem exec_writeSetting_plain {s : State} (h : Listening s) {number : Byte} {value : Half}
    (hv : SettingRange number.toNat value.toNat)
    (hn : number.toNat ≠ 0 ∧ number.toNat ≠ 2 ∧ number.toNat ≠ 4 ∧ number.toNat ≠ 9) (fill : Nat) :
    exec (writeSettingCommand number value fill) s =
      .next
        { s with
          settings := storeSetting s.settings number.toNat value.toNat
          mgmt := answered s 0x02 (8 * (4 + fill)) .accepted (number :: twoBytes value.toNat) } := by
  rw [exec_writeSetting_inRange h hv, settingWritten_plain hn]
  rfl

/-- Settles O19: none of the six settings has an effect of its own. -/
theorem plainSettingsHaveNoSideEffect : Obligations.PlainSettingsHaveNoSideEffect := by
  intro s v fill h reply
  have hlt := v.isLt
  refine ⟨fun hv => ?_, fun hv => ?_, fun hv => ?_, fun hv => ?_, fun hv => ?_, fun hv => ?_⟩
  · have hr : SettingRange (1 : Byte).toNat v.toNat := .inr (.inl ⟨rfl, hv, by omega⟩)
    exact exec_writeSetting_plain h hr (by decide) fill
  · have hr : SettingRange (3 : Byte).toNat v.toNat := .inr (.inr (.inr (.inl ⟨rfl, hv⟩)))
    exact exec_writeSetting_plain h hr (by decide) fill
  · have hr : SettingRange (5 : Byte).toNat v.toNat := .inr (.inr (.inr (.inr (.inr (.inl ⟨rfl, hv⟩)))))
    exact exec_writeSetting_plain h hr (by decide) fill
  · have hr : SettingRange (6 : Byte).toNat v.toNat := .inr (.inr (.inr (.inr (.inr (.inr (.inl ⟨rfl, hv⟩))))))
    exact exec_writeSetting_plain h hr (by decide) fill
  · have hr : SettingRange (7 : Byte).toNat v.toNat := .inr (.inr (.inr (.inr (.inr (.inr (.inr (.inl ⟨rfl, hv⟩)))))))
    exact exec_writeSetting_plain h hr (by decide) fill
  · have hr : SettingRange (8 : Byte).toNat v.toNat :=
      .inr (.inr (.inr (.inr (.inr (.inr (.inr (.inr (.inl ⟨rfl, hv⟩))))))))
    exact exec_writeSetting_plain h hr (by decide) fill

theorem twoBytes_of_small {n : Nat} (h : n < 256) : twoBytes n = [0, BitVec.ofNat 8 n] := by
  unfold twoBytes
  rw [Nat.div_eq_of_lt h]
  rfl

/-- Settles O20: SYNC_MODE takes force by the state at the write. -/
theorem writeSyncModeTakesForceByState : Obligations.WriteSyncModeTakesForceByState := by
  intro s v fill h hv m u
  have hr : SettingRange (0 : Byte).toNat v.toNat := .inl ⟨rfl, hv⟩
  have hexec := exec_writeSetting_inRange h hr fill
  rw [twoBytes_of_small (by omega)] at hexec
  have hstored : { settingStored 0 v (clocked (8 * (4 + fill)) s) with
      mgmt := answered s 0x02 (8 * (4 + fill)) .accepted [0, 0, BitVec.ofNat 8 v.toNat] } = u := rfl
  have hwaits : s.sched.state ≠ .stopped → (s.sched.state = .gap → v.toNat ≠ 0) →
      exec (.writeSyncMode v fill) s = .next u := by
    intro hs hg
    refine hexec.trans (congrArg _ ?_)
    have hw := settingWritten_mode_waits (value := v) (s := clocked (8 * (4 + fill)) s) hs hg
    exact (congrArg (fun t : State => { t with mgmt := u.mgmt }) hw).trans hstored
  refine ⟨fun hs => ?_, fun hs => ?_, fun hg hone => ?_, fun hg hzero => ?_⟩
  · refine hwaits (fun h => ?_) fun h => ?_
    · rw [h] at hs
      rcases hs with hs | hs <;> cases hs
    · rw [h] at hs
      rcases hs with hs | hs <;> cases hs
  · refine hexec.trans (congrArg _ ?_)
    have hw := settingWritten_mode_in_stopped (value := v) (s := clocked (8 * (4 + fill)) s) hs
    exact congrArg (fun t : State => { t with mgmt := u.mgmt }) hw
  · refine hwaits (fun h => ?_) fun _ => by omega
    rw [h] at hg
    cases hg
  · refine ⟨_, hexec, ?_⟩
    have hw := settingWritten_internal_in_gap (value := v) (s := clocked (8 * (4 + fill)) s) hg hzero
    have hf : FrameStarted
        ((settingStored 0 v (clocked (8 * (4 + fill)) s)).setSched { s.sched with syncInForce := .internal })
        (settingWritten 0 v (clocked (8 * (4 + fill)) s)) := by
      rw [hw]
      exact frameStart_spec _
    exact frameStarted_mgmt hf u.mgmt

/-- Of distinct links, one is its holder's youngest exactly if no later one has the same holder (R62). -/
theorem isYoungestOfHolder_iff {links : List Link} (hn : links.Nodup) {l : Link} (hl : l ∈ links) :
    isYoungestOfHolder links l = true ↔
      ((links.dropWhile (· != l)).drop 1).any (fun x => x.holder == l.holder) = false := by
  obtain ⟨front, back, rfl⟩ := List.append_of_mem hl
  obtain ⟨_, hback, hfront⟩ := List.nodup_append'.1 hn
  have hdrop : ((front ++ l :: back).dropWhile (· != l)).drop 1 = back := by
    rw [List.dropWhile_append_of_pos fun x hx => ?_]
    · simp
    · have hne : x ≠ l := fun h => hfront hx (h ▸ List.mem_cons_self ..)
      simpa using hne
  rw [hdrop]
  unfold isYoungestOfHolder
  rw [List.filter_append, List.filter_cons_of_pos (by simp), beq_iff_eq, List.getLast?_append]
  cases hlast : (back.filter fun x => x.holder == l.holder).getLast? with
  | none =>
    rw [List.getLast?_eq_none_iff] at hlast
    rw [hlast, List.any_eq_false]
    simp only [List.getLast?_singleton, Option.some_or, true_iff]
    exact fun x hx => List.filter_eq_nil_iff.1 hlast x hx
  | some k =>
    have hk := List.mem_of_getLast? hlast
    obtain ⟨hkb, hkh⟩ := List.mem_filter.1 hk
    have hne : k ≠ l := fun h => (List.nodup_cons.1 hback).1 (h ▸ hkb)
    have hany : back.any (fun x => x.holder == l.holder) = true := List.any_eq_true.2 ⟨k, hkb, hkh⟩
    rw [List.getLast?_cons, hlast, hany]
    simpa using hne

theorem closed_congr {s t : State} {f g : Link → Bool} {c : LossCause} (h : ∀ l ∈ s.links, f l = g l)
    (hc : Closed s t f c) : Closed s t g c := by
  obtain ⟨hl, hp, ht⟩ := hc
  refine ⟨hl.trans (List.filter_congr fun l hmem => by rw [h l hmem]), fun p => ?_, ht⟩
  have hcount : linksOf s p g = linksOf s p f := List.countP_congr fun l hmem => by rw [h l hmem]
  rw [hcount]
  exact hp p

/-- Settles O21: LINK_LIMIT and GRANULE close what their new value does not allow, NOTICE_MASK recomputes the line. -/
theorem settingsWithSideEffectsAtTheWrite : Obligations.SettingsWithSideEffectsAtTheWrite := by
  intro s v fill h ul ug
  refine ⟨fun hd hone htwo => ?lowered, fun hv hlim => ?kept, fun hv => ⟨fun hne => ?changed, fun heq => ?same⟩,
    fun hv heven => ?mask⟩
  case lowered =>
    have hr : SettingRange (2 : Byte).toNat v.toNat := .inr (.inr (.inl ⟨rfl, by omega, by omega⟩))
    refine ⟨_, exec_writeSetting_inRange h hr fill, ?_⟩
    have hw := settingWritten_limit_lowered (value := v) (s := clocked (8 * (4 + fill)) s)
      (by change v.toNat < s.settings.linkLimit; omega)
    have hc := closed_mgmt (closeWhere_closed (fun l => !isYoungestOfHolder s.links l) .replaced
      (settingStored 2 v (clocked (8 * (4 + fill)) s))) ul.mgmt
    have hc' := closed_congr (g := fun l => ((s.links.dropWhile (· != l)).drop 1).any fun x => x.holder == l.holder)
      (fun l hl => ?_) hc
    · change Closed ul { settingWritten 2 v (clocked (8 * (4 + fill)) s) with mgmt := ul.mgmt } _ _
      rw [hw]
      exact hc'
    · have hy := isYoungestOfHolder_iff (nodup_of_linksDistinct hd) hl
      cases ha : ((s.links.dropWhile (· != l)).drop 1).any fun x => x.holder == l.holder with
      | false => rw [hy.2 ha]; rfl
      | true =>
        have hny : isYoungestOfHolder s.links l = false := by
          rw [Bool.eq_false_iff]
          intro hyt
          rw [hy.1 hyt] at ha
          cases ha
        rw [hny]
        rfl
  case kept =>
    have hr : SettingRange (2 : Byte).toNat v.toNat := .inr (.inr (.inl ⟨rfl, by omega, by omega⟩))
    refine (exec_writeSetting_inRange h hr fill).trans (congrArg _ ?_)
    have hw := settingWritten_limit_kept (value := v) (s := clocked (8 * (4 + fill)) s)
      (by change s.settings.linkLimit ≤ v.toNat; omega)
    exact congrArg (fun t : State => { t with mgmt := ul.mgmt }) hw
  case changed =>
    have hr : SettingRange (4 : Byte).toNat v.toNat := .inr (.inr (.inr (.inr (.inl ⟨rfl, hv⟩))))
    refine ⟨_, exec_writeSetting_inRange h hr fill, ?_⟩
    have hw := settingWritten_granule_changed (value := v) (s := clocked (8 * (4 + fill)) s) hne
    have hc := closed_mgmt (closeWhere_closed (fun _ => true) .purged (settingStored 4 v (clocked (8 * (4 + fill)) s)))
      ug.mgmt
    change Closed ug { settingWritten 4 v (clocked (8 * (4 + fill)) s) with mgmt := ug.mgmt } _ _
    rw [hw]
    exact hc
  case same =>
    have hr : SettingRange (4 : Byte).toNat v.toNat := .inr (.inr (.inr (.inr (.inl ⟨rfl, hv⟩))))
    refine (exec_writeSetting_inRange h hr fill).trans (congrArg _ ?_)
    have hw := settingWritten_granule_kept (value := v) (s := clocked (8 * (4 + fill)) s) heq
    exact congrArg (fun t : State => { t with mgmt := ug.mgmt }) hw
  case mask =>
    have hr : SettingRange (9 : Byte).toNat v.toNat :=
      .inr (.inr (.inr (.inr (.inr (.inr (.inr (.inr (.inr ⟨rfl, hv, heven⟩))))))))
    have hexec := exec_writeSetting_inRange h hr fill
    rw [twoBytes_of_small (by omega)] at hexec
    rw [← noticeLine_eq]
    exact hexec

end Sys2Proof.Proofs
end

section
/-! PROOF. Tables, START and STOP, recovery and maintenance, and the commands that name a port (R9, R10, R50, R51, R73 to R77,
R125 to R128, R143 to R146). -/

namespace Sys2Proof.Proofs

open Sys2Proof Sys2Proof.Machine Sys2Proof.Safety

/-! ### WRITE_SLOT -/

theorem slotRecordOf_owned {kind owner length donate : Byte} {p : Port} (hl : 1 ≤ length.toNat ∧ length.toNat ≤ 64)
    (hk : kind.toNat = 0) (hp : p.val = owner.toNat) (hd : donate.toNat ≤ 1) :
    slotRecordOf kind owner length donate = some (.owned p length.toNat (donate.toNat == 1)) := by
  have ho : owner.toNat < 8 := hp ▸ p.isLt
  have hp' : (⟨owner.toNat, ho⟩ : Port) = p := Fin.ext hp.symm
  unfold slotRecordOf
  rw [if_pos hl, hk]
  change (if h : owner.toNat < 8 then if donate.toNat ≤ 1 then some (SlotRecord.owned ⟨owner.toNat, h⟩ length.toNat
    (donate.toNat == 1)) else none else none) = _
  rw [dif_pos ho, if_pos hd, hp']

theorem slotRecordOf_pool {kind length : Byte} (owner donate : Byte) (hl : 1 ≤ length.toNat ∧ length.toNat ≤ 64)
    (hk : kind.toNat = 1) : slotRecordOf kind owner length donate = some (.pool length.toNat) := by
  unfold slotRecordOf
  rw [if_pos hl, hk]
  rfl

theorem slotRecordOf_quiet {kind length : Byte} (owner donate : Byte) (hl : 1 ≤ length.toNat ∧ length.toNat ≤ 64)
    (hk : kind.toNat = 2) : slotRecordOf kind owner length donate = some (.quiet length.toNat) := by
  unfold slotRecordOf
  rw [if_pos hl, hk]
  rfl

theorem slotRecordOf_none {kind owner length donate : Byte}
    (h : ¬(1 ≤ length.toNat ∧ length.toNat ≤ 64) ∨ 2 < kind.toNat ∨
      (kind.toNat = 0 ∧ (7 < owner.toNat ∨ 1 < donate.toNat))) :
    slotRecordOf kind owner length donate = none := by
  unfold slotRecordOf
  split
  · next hl =>
    rcases h with h | h | ⟨hk, h⟩
    · exact absurd hl h
    · split
      · omega
      · omega
      · omega
      · rfl
    · split
      · next ho =>
        split
        · exact if_neg (by omega)
        · rfl
      · omega
      · omega
      · rfl
  · rfl

/-- A record in place of another (R9). -/
theorem slots_set_get (t : SlotTable) (i j : Fin 32) (r : SlotRecord) :
    (t.slots.set i.val r i.isLt).get j = if j.val = i.val then r else t.slots.get j := by
  change (t.slots.set i.val r i.isLt)[j.val] = _
  rw [Vector.getElem_set]
  by_cases h : j.val = i.val
  · rw [if_pos h, if_pos h.symm]
  · rw [if_neg h, if_neg (Ne.symm h)]
    rfl

section
variable {s : State} {index kind owner length donate : Byte} (fill : Nat)

/-- WRITE_SLOT with arguments that describe a record (R9). -/
theorem exec_writeSlot_of_record (h : Listening s) (hc : s.sched.commit = .none) {r : SlotRecord}
    (hi : index.toNat ≤ 31) (hr : slotRecordOf kind owner length donate = some r) {o d : Byte}
    (hbytes : r.bytes = [kind, o, length, d]) :
    Completes (exec (.writeSlot index kind owner length donate fill) s) fun t =>
      (∀ j : Fin 32, t.shadow.slots.get j = if j.val = index.toNat then r else s.shadow.slots.get j) ∧
        t.shadow.frameLen = s.shadow.frameLen ∧
        t =
          { s with
            shadow := t.shadow
            mgmt :=
              answered s 0x10 (8 * (6 + fill)) .accepted
                [index, kind, o, length, d, BitVec.ofNat 8 s.shadow.frameLen] } := by
  have hidx := indexArg_of_eq (index := index) (j := ⟨index.toNat, by omega⟩) rfl
  have hedit : ∀ u : State, writeSlotEdit index kind owner length donate u =
      accept (u.setTables u.active { u.shadow with slots := u.shadow.slots.set index.toNat r (by omega) })
        [index, kind, o, length, d, BitVec.ofNat 8 u.shadow.frameLen] := by
    intro u
    unfold writeSlotEdit
    rw [hidx, hr]
    dsimp only
    rw [hbytes]
    rfl
  rw [exec_writeSlot]
  refine ⟨_, congrArg _ (command_shadowEdit_stores h hc 0x10 [index, kind, owner, length, donate] fill (hedit _)),
    fun j => ?_, rfl, rfl⟩
  exact slots_set_get s.shadow ⟨index.toNat, by omega⟩ j r

/-- Settles O22: the arguments describe a record, or the command is refused. -/
theorem writeSlotReplacesOneShadowRecord : Obligations.WriteSlotReplacesOneShadowRecord := by
  intro s index kind owner length donate fill h hc put fair
  have hbyte : ∀ b : Byte, BitVec.ofNat 8 b.toNat = b := fun b => by simp
  refine ⟨fun hf hk p hp hd => ?_, fun hf hk => ?_, fun hf hk => ?_, fun hbad => ?_⟩
  · obtain ⟨hi, hl⟩ := hf
    refine exec_writeSlot_of_record fill h hc hi (slotRecordOf_owned hl hk hp hd) ?_
    have hk0 : kind = 0 := BitVec.eq_of_toNat_eq hk
    have hdon : (if (donate.toNat == 1) = true then (1 : Byte) else 0) = donate := by
      apply BitVec.eq_of_toNat_eq
      rcases Nat.le_one_iff_eq_zero_or_eq_one.1 hd with h | h <;> rw [h] <;> rfl
    unfold SlotRecord.bytes
    dsimp only
    rw [hp, hbyte, hbyte, hdon, hk0]
  · obtain ⟨hi, hl⟩ := hf
    refine exec_writeSlot_of_record fill h hc hi (slotRecordOf_pool owner donate hl hk) ?_
    have hk1 : kind = 1 := BitVec.eq_of_toNat_eq hk
    unfold SlotRecord.bytes
    dsimp only
    rw [hbyte, hk1]
  · obtain ⟨hi, hl⟩ := hf
    refine exec_writeSlot_of_record fill h hc hi (slotRecordOf_quiet owner donate hl hk) ?_
    have hk2 : kind = 2 := BitVec.eq_of_toNat_eq hk
    unfold SlotRecord.bytes
    dsimp only
    rw [hbyte, hk2]
  · have hedit : ∀ u : State, writeSlotEdit index kind owner length donate u = refuse u .badArgument := by
      intro u
      unfold writeSlotEdit
      by_cases hi : index.toNat ≤ 31
      · have hnone : slotRecordOf kind owner length donate = none := by
          refine slotRecordOf_none (hbad.imp_left fun hn => ?_)
          exact fun hl => hn ⟨hi, hl⟩
        rw [hnone]
        split
        · next h => cases h
        · rfl
      · rw [indexArg_of_over (Nat.not_le.1 hi)]
    rw [exec_writeSlot]
    exact congrArg _ (command_shadowEdit_refuses h hc 0x10 [index, kind, owner, length, donate] fill hedit)

end

/-! ### START and STOP -/

theorem exec_start {s : State} (h : Listening s) (fill : Nat) (hm : (startScheduler (clocked (8 * (1 + fill)) s)).mgmt =
    (clocked (8 * (1 + fill)) s).mgmt) :
    exec (.start fill) s =
      .next { startScheduler (clocked (8 * (1 + fill)) s) with mgmt := answered s 0x20 (8 * (1 + fill)) .accepted [] } :=
  congrArg _ (command_of_reply (body := fun u => accept (startScheduler u) []) h 0x20 [] fill rfl hm)

theorem exec_stop {s : State} (h : Listening s) (fill : Nat) (hm : (stopScheduler (clocked (8 * (1 + fill)) s)).mgmt =
    (clocked (8 * (1 + fill)) s).mgmt) :
    exec (.stop fill) s =
      .next { stopScheduler (clocked (8 * (1 + fill)) s) with mgmt := answered s 0x21 (8 * (1 + fill)) .accepted [] } :=
  congrArg _ (command_of_reply (body := fun u => accept (stopScheduler u) []) h 0x21 [] fill rfl hm)

theorem startScheduler_internal {s : State} (hs : s.sched.state = .stopped) (hm : s.sched.syncInForce = .internal) :
    startScheduler s = frameStart s := by
  unfold startScheduler
  rw [hs, hm]

theorem startScheduler_external {s : State} (hs : s.sched.state = .stopped) (hm : s.sched.syncInForce = .external) :
    startScheduler s = enterGap s := by
  unfold startScheduler
  rw [hs, hm]

theorem startScheduler_started {s : State} (hs : s.sched.state ≠ .stopped) : startScheduler s = s := by
  unfold startScheduler
  split
  · next h _ => exact absurd h hs
  · next h _ => exact absurd h hs
  · rfl

theorem stopScheduler_running {s : State} (hs : s.sched.state = .running) :
    stopScheduler s = s.setSched { s.sched with state := .draining } := by
  unfold stopScheduler
  rw [hs]

theorem stopScheduler_gap {s : State} (hs : s.sched.state = .gap) : stopScheduler s = enterStopped s := by
  unfold stopScheduler
  rw [hs]

theorem stopScheduler_stopping {s : State} (hs : s.sched.state = .stopped ∨ s.sched.state = .draining) :
    stopScheduler s = s := by
  unfold stopScheduler
  rcases hs with hs | hs <;> rw [hs]

/-- Settles O26: START acts in STOPPED alone, STOP in RUNNING and in GAP. -/
theorem startAndStop : Obligations.StartAndStop := by
  intro s fill h us ut
  refine ⟨fun hs hm => ?_, fun hs hm => ?_, fun hs => ?_, fun hs => ?_, fun hs => ?_, fun hs => ?_⟩
  · have he := startScheduler_internal (s := clocked (8 * (1 + fill)) s) hs hm
    have hx := exec_start h fill (by rw [he, frameStart_mgmt])
    rw [he] at hx
    exact ⟨_, hx, frameStarted_mgmt (frameStart_spec _) us.mgmt⟩
  · have he := startScheduler_external (s := clocked (8 * (1 + fill)) s) hs hm
    have hx := exec_start h fill (by rw [he, enterGap_mgmt])
    rw [he] at hx
    have hg := enterGap_spec (clocked (8 * (1 + fill)) s)
    have hmode : (clocked (8 * (1 + fill)) s).sched.syncInForce = .external := hm
    rw [hmode] at hg
    exact ⟨_, hx, inGap_mgmt hg us.mgmt⟩
  · have he := startScheduler_started (s := clocked (8 * (1 + fill)) s) hs
    have hx := exec_start h fill (by rw [he])
    rw [he] at hx
    exact hx
  · have he := stopScheduler_running (s := clocked (8 * (1 + fill)) s) hs
    have hx := exec_stop h fill (by rw [he]; rfl)
    rw [he] at hx
    exact hx
  · have he := stopScheduler_gap (s := clocked (8 * (1 + fill)) s) hs
    have hx := exec_stop h fill (by rw [he, enterStopped_mgmt])
    rw [he] at hx
    exact ⟨_, hx, stopped_mgmt (enterStopped_spec _) ut.mgmt⟩
  · have he := stopScheduler_stopping (s := clocked (8 * (1 + fill)) s) hs
    have hx := exec_stop h fill (by rw [he])
    rw [he] at hx
    exact hx

/-! ### Recovery and maintenance windows -/

theorem exec_recover {s : State} (h : Listening s) (fill : Nat) {r : MgmtReply}
    (hr : recoverBody (clocked (8 * (1 + fill)) s) = r) (hm : r.state.mgmt = (clocked (8 * (1 + fill)) s).mgmt) :
    exec (.recover fill) s =
      .next { r.state with mgmt := answered s 0x60 (8 * (1 + fill)) r.status r.data } :=
  congrArg _ (command_of_reply h 0x60 [] fill hr hm)

theorem exec_recoverForce {s : State} (h : Listening s) (fill : Nat) {r : MgmtReply}
    (hr : recoverForceBody (clocked (8 * (1 + fill)) s) = r) (hm : r.state.mgmt = (clocked (8 * (1 + fill)) s).mgmt) :
    exec (.recoverForce fill) s =
      .next { r.state with mgmt := answered s 0x61 (8 * (1 + fill)) r.status r.data } :=
  congrArg _ (command_of_reply h 0x61 [] fill hr hm)

/-- Settles O42: RECOVER and RECOVER_FORCE by the memory port's state and what is owed. -/
theorem recoverAndRecoverForce : Obligations.RecoverAndRecoverForce := by
  intro s fill h owed
  have hbody : ∀ u : State, recoverBody u = match u.mem.state with
    | .ready => accept u (recoverBytes u)
    | .wedged => if u.mem.owed = 0 then
        accept (u.setMem { u.mem with state := .ready }) (recoverBytes (u.setMem { u.mem with state := .ready }))
      else ⟨u, .busy, recoverBytes u⟩ := fun u => rfl
  refine ⟨fun hs ho => ?_, fun hs ho => ?_, fun hs => ?_, fun hs => ?_, fun hs => ?_⟩
  · have hr := hbody (clocked (8 * (1 + fill)) s)
    rw [show (clocked (8 * (1 + fill)) s).mem.state = .wedged from hs] at hr
    have hx := exec_recover h fill (hr.trans (if_pos ho)) rfl
    refine hx.trans ?_
    change Host.Outcome.next { s with
      mem := { s.mem with state := .ready },
      mgmt := answered s 0x60 (8 * (1 + fill)) .accepted [0, byteN s.mem.owed] } = _
    rw [ho]
    rfl
  · have hr := hbody (clocked (8 * (1 + fill)) s)
    rw [show (clocked (8 * (1 + fill)) s).mem.state = .wedged from hs] at hr
    have hx := exec_recover h fill (hr.trans (if_neg (Nat.pos_iff_ne_zero.1 ho))) rfl
    refine hx.trans ?_
    change Host.Outcome.next { s with
      mgmt := answered s 0x60 (8 * (1 + fill)) .busy [s.mem.state.code, byteN s.mem.owed] } = _
    rw [hs]
    rfl
  · have hr := hbody (clocked (8 * (1 + fill)) s)
    rw [show (clocked (8 * (1 + fill)) s).mem.state = .ready from hs] at hr
    refine (exec_recover h fill hr rfl).trans ?_
    change Host.Outcome.next { s with
      mgmt := answered s 0x60 (8 * (1 + fill)) .accepted [s.mem.state.code, byteN s.mem.owed] } = _
    rw [hs]
    rfl
  · have hr : recoverForceBody (clocked (8 * (1 + fill)) s) =
        accept ((clocked (8 * (1 + fill)) s).setMem { s.mem with state := .ready, owed := 0 }) [0, 0] := by
      unfold recoverForceBody
      rw [show (clocked (8 * (1 + fill)) s).mem.state = .wedged from hs]
      rfl
    exact exec_recoverForce h fill hr rfl
  · have hr : recoverForceBody (clocked (8 * (1 + fill)) s) =
        accept (clocked (8 * (1 + fill)) s) [0, owed] := by
      unfold recoverForceBody recoverBytes
      rw [show (clocked (8 * (1 + fill)) s).mem.state = .ready from hs]
      rfl
    exact exec_recoverForce h fill hr rfl

/-- Settles O43: both happenings are the recording of MAINT_REQ and the grant's own test. -/
theorem maintenanceWindows : Obligations.MaintenanceWindows := by
  intro s
  refine ⟨⟨_, rfl, ?_⟩, rfl, ⟨_, rfl, grantMaint_spec s⟩⟩
  exact grantMaint_spec (s.setMem { s.mem with maintReq := true })

/-! ### The commands that name a port -/

section
variable {s : State} {p : Port} {b : Byte} (fill : Nat)

/-- A command that names a port acts on it and answers with its state (R125, R126, R127). -/
theorem command_onPort (h : Listening s) (code : Byte) (hb : b.toNat = p.val) {act : Port → State → State}
    (hm : (act p (clocked (8 * (2 + fill)) s)).mgmt = (clocked (8 * (2 + fill)) s).mgmt) {state : PortState} {enabled : Bool}
    (hstate : ((act p (clocked (8 * (2 + fill)) s)).port p).state = state)
    (henabled : ((act p (clocked (8 * (2 + fill)) s)).port p).enabled = enabled) :
    command code [b] fill (onPort b fun p u => portReply p (act p u)) s =
      { act p (clocked (8 * (2 + fill)) s) with
        mgmt :=
          answered s code (8 * (2 + fill)) .accepted
            [BitVec.ofNat 8 p.val, state.code, BitVec.ofNat 8 enabled.toNat] } := by
  subst hstate henabled
  rw [command_of_reply h code [b] fill (onPort_of_eq hb (fun p u => portReply p (act p u)) _) hm, ← flag_eq]
  rfl

/-- An argument over 7 is refused (R125, R126, R127). -/
theorem command_onPort_over (h : Listening s) (code : Byte) (hb : 7 < b.toNat) (act : Port → State → MgmtReply) :
    command code [b] fill (onPort b act) s =
      { s with mgmt := answered s code (8 * (2 + fill)) .badArgument [] } :=
  command_refuse h code [b] fill (onPort b act) .badArgument (onPort_of_over hb act _)

end

/-- Settles O49: the line and the command start the reset that `startReset` is. -/
theorem portResetStarts : Obligations.PortResetStarts := by
  intro s p b fill held u
  have hstate : (held.port p).state = (s.port p).state := by
    change ((s.setPort p { s.port p with prst := true }).port p).state = _
    rw [port_setPort_self]
  refine ⟨fun hr hs => ?_, fun hrs => ?_, rfl, fun h hb hs => ?_, fun h hb hs => ?_, fun h hb => ?_⟩
  · refine ⟨startReset p held, congrArg Host.Outcome.next (if_neg ?_), startReset_spec p held (hstate ▸ hs)⟩
    rw [hr]
    exact Bool.false_ne_true
  · change Host.Outcome.next (if s.resetAsserted then held else startReset p held) = .next held
    rcases hrs with hr | hs
    · rw [if_pos hr]
    · rw [startReset_resetting p held (hstate.trans hs), ite_self]
  · have hspec := startReset_spec p (clocked (8 * (2 + fill)) s) hs
    have hx := command_onPort fill h 0x32 hb (act := startReset) (startReset_mgmt p _)
      (congrArg PortRec.state hspec.1) (congrArg PortRec.enabled hspec.1)
    exact ⟨_, congrArg Host.Outcome.next hx, resetStarted_mgmt hspec u.mgmt⟩
  · have he := startReset_resetting p (clocked (8 * (2 + fill)) s) hs
    have hx := command_onPort fill h 0x32 hb (act := startReset) (startReset_mgmt p _)
      ((congrArg (fun t : State => (t.port p).state) he).trans hs) (congrArg (fun t : State => (t.port p).enabled) he)
    rw [he] at hx
    exact congrArg Host.Outcome.next hx
  · exact congrArg Host.Outcome.next (command_onPort_over fill h 0x32 hb _)

/-- Settles O50: the reset's end has the three conditions of `resetDrained`. -/
theorem portResetEnds : Obligations.PortResetEnds := by
  intro s p drained
  have hiff : drained ↔ s.resetAsserted = false ∧ resetDrained s p = true :=
    and_congr_right fun _ => (resetDrained_iff s p).symm
  rcases endReset_cases p s with ⟨hr, hd, he⟩ | ⟨hnot, he⟩
  · refine ⟨fun _ => ⟨_, congrArg Host.Outcome.next he, ?_, fun q hq => ?_, rfl⟩, fun hn => absurd (hiff.2 ⟨hr, hd⟩) hn⟩
    · exact port_setPort_self _ _ _
    · exact port_setPort_ne _ _ hq
  · refine ⟨fun hd => ?_, fun _ => congrArg Host.Outcome.next he⟩
    obtain ⟨hr, hd⟩ := hiff.1 hd
    rcases hnot with h | h
    · exact absurd (hr.symm.trans h) Bool.false_ne_true
    · exact absurd (h.symm.trans hd) Bool.false_ne_true

/-! ### PORT_ENABLE and PORT_DISABLE -/

/-- What PORT_DISABLE makes of a port (R125). -/
abbrev portDisabled (s : State) (p : Port) : PortRec :=
  let x := s.port p
  let n := if x.state = .opened ∧ x.queue = [] then heldBy p s.links else 0
  { x with
    enabled := false
    state := if x.state = .opened then (if x.queue = [] then .disabled else .halting) else x.state
    lastLoss := if n = 0 then x.lastLoss else some .purged
    lossCount := x.lossCount + BitVec.ofNat 32 n }

theorem purgePort_eq (p : Port) (s : State) :
    purgePort p s =
      ({ s with links := s.links.filter fun l => !(l.holder == p) } : State).setPort p
        (recordLoss .purged (heldBy p s.links) (s.port p)) := by
  refine state_ext_ports (fun q => ?_) rfl
  rw [purgePort_port, port_setPort]
  split
  · next h => rw [h]
  · rfl

/-- PORT_DISABLE changes the one port, and the link table when the port falls to DISABLED (R125). -/
theorem disablePort_eq (p : Port) (s : State) :
    disablePort p s =
      ({ s with
          links :=
            if (s.port p).state = .opened ∧ (s.port p).queue = [] then s.links.filter fun l => !(l.holder == p)
            else s.links } : State).setPort p (portDisabled s p) := by
  unfold portDisabled
  rcases disablePort_cases p s with ⟨ho, hq, he⟩ | ⟨ho, hq, he⟩ | ⟨ho, he⟩
  · rw [he, purgePort_eq]
    simp only [ho, hq, and_self, if_true, recordLoss_eq, port_modPort_self, modPort_links]
    exact setPort_setPort (s.setLinks (s.links.filter fun l => !(l.holder == p))) p
      { s.port p with enabled := false, state := .disabled } _
  · rw [he]
    simp only [ho, hq, and_false, if_false, if_true, BitVec.add_zero]
    rfl
  · rw [he]
    simp only [ho, false_and, if_false, if_true, BitVec.add_zero]
    rfl

/-- Settles O51: both commands change the port and answer with its new state. -/
theorem portEnableAndDisable : Obligations.PortEnableAndDisable := by
  intro s p b fill h x code n up down
  have hbyte : b.toNat = p.val → BitVec.ofNat 8 p.val = b := fun hb => by
    rw [← hb]
    simp
  have hcode : ∀ st : PortState, st.code = code st := fun st => by cases st <;> rfl
  refine ⟨fun hb => ?_, fun hb => ?_, fun hb => ⟨?_, ?_⟩⟩
  · have hup : enablePort x = { x with enabled := true, state := up } := by
      rw [enablePort_eq]
      unfold up
      cases x.state <;> rfl
    have hself : ((clocked (8 * (2 + fill)) s).modPort p enablePort).port p = { x with enabled := true, state := up } :=
      (port_modPort_self _ _ _).trans hup
    have hx := command_onPort fill h 0x30 hb (act := fun p u => u.modPort p enablePort) rfl
      (congrArg PortRec.state hself) (congrArg PortRec.enabled hself)
    rw [hbyte hb, hcode] at hx
    refine congrArg Host.Outcome.next (hx.trans ?_)
    rw [modPort_eq, show enablePort ((clocked (8 * (2 + fill)) s).port p) = _ from hup]
    rfl
  · have he := disablePort_eq p (clocked (8 * (2 + fill)) s)
    have hself : (disablePort p (clocked (8 * (2 + fill)) s)).port p = portDisabled s p := by
      rw [he]
      exact port_setPort_self _ _ _
    have hx := command_onPort fill h 0x31 hb (act := disablePort) (by rw [he]; rfl)
      (congrArg PortRec.state hself) (congrArg PortRec.enabled hself)
    rw [he, hbyte hb, hcode] at hx
    exact congrArg Host.Outcome.next hx
  · exact congrArg Host.Outcome.next (command_onPort_over fill h 0x30 hb _)
  · exact congrArg Host.Outcome.next (command_onPort_over fill h 0x31 hb _)

/-! ### READ_LINK and PURGE_LINKS -/

/-- The bytes of a link (R77). -/
theorem linkBytes_eq (l : Option Link) (valid granule : Nat) :
    linkBytes l valid granule =
      (match l with
        | none => [0, 0, 0, 0, 0, 0, 0, 0]
        | some l =>
          [1, BitVec.ofNat 8 l.holder.val] ++ fourBytes l.base.toNat ++ [BitVec.ofNat 8 l.width, BitVec.ofNat 8 l.age]) ++
        [BitVec.ofNat 8 valid, BitVec.ofNat 8 granule] := by
  unfold linkBytes
  cases l with
  | none => rfl
  | some l =>
    exact congrArg (fun base => [1, byteN l.holder.val] ++ base ++ [byteN l.width, byteN l.age] ++
      [byteN valid, byteN granule]) (be32_eq l.base)

/-- Settles O53: READ_LINK by the position, PURGE_LINKS by its argument. -/
theorem readLinkAndPurgeLinks : Obligations.ReadLinkAndPurgeLinks := by
  intro s p b fill h u tail
  refine ⟨fun hb => ?_, fun hb => ?_, fun hb => ?_, fun hb => ?_, fun hb => ?_⟩
  · refine (congrArg Host.Outcome.next (command_accept h 0x40 [b] fill _ _ (if_pos hb))).trans ?_
    rw [linkBytes_eq]
    rfl
  · exact congrArg Host.Outcome.next (command_refuse h 0x40 [b] fill _ .badArgument (if_neg (by omega)))
  · have hne : ¬b = 0xFF := fun he => by
      have : b.toNat = 255 := congrArg BitVec.toNat he
      omega
    have hbody : ∀ v : State, purgeBody b v = accept (purgePort p v) [byteN (heldBy p v.links)] := fun v => by
      unfold purgeBody
      rw [if_neg hne, portArg_of_eq hb]
      rfl
    have hx := command_of_reply h 0x41 [b] fill (hbody _) (closeWhere_mgmt _ _ _)
    exact ⟨_, congrArg Host.Outcome.next hx,
      closed_mgmt (closeWhere_closed _ _ (clocked (8 * (2 + fill)) s)) (u (heldBy p s.links)).mgmt⟩
  · have hbody : ∀ v : State, purgeBody b v = accept (purgeAll v) [byteN v.links.length] := fun v =>
      if_pos (BitVec.eq_of_toNat_eq hb)
    have hx := command_of_reply h 0x41 [b] fill (hbody _) (closeWhere_mgmt _ _ _)
    exact ⟨_, congrArg Host.Outcome.next hx,
      closed_mgmt (closeWhere_closed _ _ (clocked (8 * (2 + fill)) s)) (u s.links.length).mgmt⟩
  · refine congrArg Host.Outcome.next (command_refuse h 0x41 [b] fill _ .badArgument ?_)
    have hne : ¬b = 0xFF := fun he => by
      have : b.toNat = 255 := congrArg BitVec.toNat he
      omega
    unfold purgeBody
    rw [if_neg hne, portArg_of_over hb.1]

end Sys2Proof.Proofs
end

section
/-! PROOF. The two encodings: management frames (R162, R163, R168) and request phases (R115, R117). -/

namespace Sys2Proof.Proofs

open Sys2Proof Sys2Proof.Machine Sys2Proof.Safety

/-! ### The class of a frame -/

/-- A run of bits is empty, is no whole number of bytes, or is the bits of a code and further bytes (R163). -/
theorem bits_cases (bits : List Bool) :
    bits = [] ∨ bits.length % 8 ≠ 0 ∨ ∃ c rest, bits = bitsOfBytes (c :: rest) := by
  by_cases h8 : bits.length % 8 = 0
  · have hb := bitsOfBytes_bytesOfBits bits h8
    cases hy : bytesOfBits bits with
    | nil => exact .inl (by rw [← hb, hy, bitsOfBytes_nil])
    | cons c rest => exact .inr (.inr ⟨c, rest, by rw [← hb, hy]⟩)
  · exact .inr (.inl h8)

theorem classifyFrame_partial {bits : List Bool} (h : bits.length % 8 ≠ 0) :
    classifyFrame bits = .badFrame (firstCode bits) := by
  unfold classifyFrame
  rw [if_neg (fun h0 => h (by rw [h0]; rfl)), if_pos h]

theorem bytesOfBits_of_short {bits : List Bool} (h : bits.length < 8) : bytesOfBits bits = [] := by
  unfold bytesOfBits
  split
  · simp only [List.length_cons] at h
    omega
  · rfl

theorem classifyFrame_bytes (c : Byte) (rest : List Byte) :
    classifyFrame (bitsOfBytes (c :: rest)) = classifyBytes c rest := by
  unfold classifyFrame
  have hl := bitsOfBytes_length (c :: rest)
  rw [if_neg (fun h0 => ?_), if_neg (by omega), bytesOfBits_bitsOfBytes]
  rw [h0] at hl
  simp at hl

theorem all_zero_iff (l : List Byte) : l.all (· == 0) = true ↔ ∀ x ∈ l, x = 0 := by simp

theorem not_all_zero {l : List Byte} (h : ∃ x ∈ l, x ≠ 0) : ¬l.all (· == 0) = true := by
  obtain ⟨x, hx, hn⟩ := h
  exact fun ha => hn ((all_zero_iff l).1 ha x hx)

theorem classifyBytes_fill {rest : List Byte} (h : ∀ x ∈ rest, x = 0) : classifyBytes 0 rest = .fill (rest.length + 1) := by
  unfold classifyBytes
  rw [if_pos rfl, if_pos ((all_zero_iff rest).2 h)]

theorem classifyBytes_zero_bad {rest : List Byte} (h : ∃ x ∈ rest, x ≠ 0) : classifyBytes 0 rest = .badFrame 0 := by
  unfold classifyBytes
  rw [if_pos rfl, if_neg (not_all_zero h)]

section
variable {c : Byte} {rest : List Byte}

theorem classifyBytes_unknown (hc : c ≠ 0) (hn : frameLength c = none) : classifyBytes c rest = .badCommand c := by
  unfold classifyBytes
  rw [if_neg hc, hn]

variable {len : Nat} (hc : c ≠ 0) (hn : frameLength c = some len)
include hc hn

theorem classifyBytes_short (h : rest.length + 1 < len) : classifyBytes c rest = .badFrame c := by
  unfold classifyBytes
  rw [if_neg hc, hn]
  exact if_pos h

theorem classifyBytes_trailing (h : len ≤ rest.length + 1) (hx : ∃ x ∈ rest.drop (len - 1), x ≠ 0) :
    classifyBytes c rest = .badFrame c := by
  unfold classifyBytes
  rw [if_neg hc, hn]
  exact (if_neg (Nat.not_lt.2 h)).trans (if_neg (not_all_zero hx))

theorem classifyBytes_command (h : len ≤ rest.length + 1) (hx : ∀ x ∈ rest.drop (len - 1), x = 0) :
    classifyBytes c rest = .command c (rest.take (len - 1)) (rest.length + 1 - len) := by
  unfold classifyBytes
  rw [if_neg hc, hn]
  exact (if_neg (Nat.not_lt.2 h)).trans (if_pos ((all_zero_iff _).2 hx))

end

/-! ### The table of R168 -/

theorem frameLength_of_mem : ∀ n ∈ commandTable, n.1 ≠ 0 ∧ frameLength n.1 = some n.2 := by decide

theorem frameLength_of_unlisted {c : Byte} (h : ∀ n ∈ commandTable, n.1 ≠ c) : frameLength c = none := by
  rw [frameLength_eq, List.lookup_eq_none_iff]
  exact fun n hn => bne_iff_ne.2 (h n hn).symm

theorem frameLength_pos {c : Byte} {len : Nat} (h : frameLength c = some len) : c ≠ 0 ∧ 1 ≤ len := by
  have hall : ∀ b : Byte, ∀ n ∈ frameLength b, b ≠ 0 ∧ 1 ≤ n := by decide
  exact hall c len h

/-- Settles O14: each clause is one branch of the classification. -/
theorem managementFramesAreClassified : Obligations.ManagementFramesAreClassified := by
  intro bits c rest
  refine ⟨rfl, fun h => ?_, ?_, fun hc h => ?_, fun hc h => ?_, fun hc h => ?_, fun n hn hnc => ?_⟩
  · rw [classifyFrame_partial h]
    split
    · next hlt =>
      unfold firstCode
      rw [bytesOfBits_of_short hlt]
    · rfl
  · unfold firstCode
    have := bytesOfBits_append [c] bits
    rw [bitsOfBytes_cons, bitsOfBytes_nil, List.append_nil] at this
    rw [this]
    rfl
  · rw [classifyFrame_bytes, hc, classifyBytes_fill h]
  · rw [classifyFrame_bytes, hc, classifyBytes_zero_bad h]
  · rw [classifyFrame_bytes, classifyBytes_unknown hc (frameLength_of_unlisted h)]
  · obtain ⟨hne, hlen⟩ := frameLength_of_mem n hn
    rw [hnc] at hne hlen
    rw [classifyFrame_bytes]
    exact ⟨classifyBytes_short hne hlen, classifyBytes_trailing hne hlen, classifyBytes_command hne hlen⟩

/-! ### Commands and their bytes -/

theorem frameBytes_writeSettingCommand (n : Byte) (v : Half) (fill : Nat) :
    (writeSettingCommand n v fill).wf = true ∧
      frameBytes (writeSettingCommand n v fill) = some (0x02 :: n :: halfBytes v, fill) := by
  have hn : ∀ k : Nat, k < 256 → n.toNat = k → n = BitVec.ofNat 8 k := fun k hk h =>
    BitVec.eq_of_toNat_eq (by rw [h]; simp; omega)
  unfold writeSettingCommand
  split
  case h_11 h0 h1 h2 h3 h4 h5 h6 h7 h8 h9 =>
    have h9 : 9 < n.toNat := by
      simp only [imp_false] at *
      omega
    exact ⟨decide_eq_true h9, rfl⟩
  all_goals
    next h =>
      refine ⟨rfl, ?_⟩
      rw [hn _ (by omega) h]
      rfl

/-- The bytes of a command's frame spell that command (R168). -/
theorem commandOf_of_frameBytes {i : Instr} {code : Byte} {args : List Byte} {fill : Nat} (hwf : i.wf = true)
    (h : frameBytes i = some (code :: args, fill)) : commandOf code args fill = some i := by
  have hset : ∀ (n : Byte) (v : Half) (f : Nat),
      commandOf 0x02 (n :: halfBytes v) f = some (writeSettingCommand n v f) := fun n v f =>
    congrArg (fun x => some (writeSettingCommand n x f)) (half_halfBytes v)
  cases i with
  | writeSetting n v f =>
    obtain ⟨⟨rfl, rfl⟩, rfl⟩ : (0x02 = code ∧ n :: halfBytes v = args) ∧ f = fill := by
      simpa [frameBytes] using h
    rw [hset]
    have h9 : 9 < n.toNat := of_decide_eq_true hwf
    unfold writeSettingCommand
    split
    case h_11 => rfl
    all_goals omega
  | writeSyncMode v f | writeSyncWait v f | writeLinkLimit v f | writeLinkAgeLimit v f | writeGranule v f | writeMemSize v f
  | writeMemTimeout v f | writeWaitLimit v f | writeSplitOk v f | writeNoticeMask v f =>
    cases h
    exact hset _ _ _
  | _ =>
    cases h <;> rfl

/-- A code and its arguments have a well-formed command of which they are the frame (R168). -/
abbrev Spelt (code : Byte) (args : List Byte) (fill : Nat) : Prop :=
  ∃ i : Instr, i.wf = true ∧ frameBytes i = some (code :: args, fill)

theorem byte_of_toNat {b : Byte} {k : Nat} (h : b.toNat = k) : b = BitVec.ofNat 8 k := by
  rw [← h]
  simp

section
variable {code : Byte} {args : List Byte} {fill k : Nat} (hc : code.toNat = k)
include hc

theorem spelt_of_none (h : some 1 = some (args.length + 1)) {i : Instr} (hw : i.wf = true)
    (hb : frameBytes i = some ([BitVec.ofNat 8 k], fill)) : Spelt code args fill := by
  rw [List.length_eq_zero_iff.1 (Nat.succ.inj (Option.some.inj h)).symm, byte_of_toNat hc]
  exact ⟨i, hw, hb⟩

theorem spelt_of_one (h : some 2 = some (args.length + 1)) {i : Byte → Instr} (hw : ∀ x, (i x).wf = true)
    (hb : ∀ x, frameBytes (i x) = some ([BitVec.ofNat 8 k, x], fill)) : Spelt code args fill := by
  obtain ⟨x, rfl⟩ := List.length_eq_one_iff.1 (Nat.succ.inj (Option.some.inj h)).symm
  rw [byte_of_toNat hc]
  exact ⟨i x, hw x, hb x⟩

end

/-- Every code of R168 with its number of arguments spells a command. -/
theorem spelt_of_frameLength {code : Byte} {args : List Byte} (fill : Nat)
    (h : frameLength code = some (args.length + 1)) : Spelt code args fill := by
  unfold frameLength at h
  split at h
  case h_1 hc => exact spelt_of_one hc h (i := fun x => .readSetting x fill) (fun _ => rfl) fun _ => rfl
  case h_2 hc =>
    obtain ⟨number, hi, lo, rfl⟩ := List.length_eq_three.1 (Nat.succ.inj (Option.some.inj h)).symm
    have hw := frameBytes_writeSettingCommand number (half hi lo) fill
    rw [halfBytes_half] at hw
    rw [byte_of_toNat hc]
    exact ⟨_, hw⟩
  case h_3 hc =>
    match args, h with
    | [index, kind, owner, length, donate], _ =>
      exact ⟨.writeSlot index kind owner length donate fill, rfl, by rw [byte_of_toNat hc]; rfl⟩
  case h_4 hc =>
    obtain ⟨table, index, rfl⟩ := List.length_eq_two.1 (Nat.succ.inj (Option.some.inj h)).symm
    exact ⟨.readSlot table index fill, rfl, by rw [byte_of_toNat hc]; rfl⟩
  case h_5 hc => exact spelt_of_one hc h (i := fun x => .setFrameLen x fill) (fun _ => rfl) fun _ => rfl
  case h_6 hc => exact spelt_of_none hc h (i := .commitTable fill) rfl rfl
  case h_7 hc => exact spelt_of_none hc h (i := .cancelCommit fill) rfl rfl
  case h_8 hc => exact spelt_of_none hc h (i := .copyActive fill) rfl rfl
  case h_9 hc => exact spelt_of_none hc h (i := .start fill) rfl rfl
  case h_10 hc => exact spelt_of_none hc h (i := .stop fill) rfl rfl
  case h_11 hc => exact spelt_of_one hc h (i := fun x => .portEnable x fill) (fun _ => rfl) fun _ => rfl
  case h_12 hc => exact spelt_of_one hc h (i := fun x => .portDisable x fill) (fun _ => rfl) fun _ => rfl
  case h_13 hc => exact spelt_of_one hc h (i := fun x => .portReset x fill) (fun _ => rfl) fun _ => rfl
  case h_14 hc => exact spelt_of_one hc h (i := fun x => .readPort x fill) (fun _ => rfl) fun _ => rfl
  case h_15 hc => exact spelt_of_one hc h (i := fun x => .readLink x fill) (fun _ => rfl) fun _ => rfl
  case h_16 hc => exact spelt_of_one hc h (i := fun x => .purgeLinks x fill) (fun _ => rfl) fun _ => rfl
  case h_17 hc => exact spelt_of_none hc h (i := .peekNotice fill) rfl rfl
  case h_18 hc => exact spelt_of_none hc h (i := .takeNotice fill) rfl rfl
  case h_19 hc => exact spelt_of_none hc h (i := .recover fill) rfl rfl
  case h_20 hc => exact spelt_of_none hc h (i := .recoverForce fill) rfl rfl
  case h_21 hc => exact spelt_of_none hc h (i := .clearState fill) rfl rfl
  case h_22 hc => exact spelt_of_none hc h (i := .readGate fill) rfl rfl
  case h_23 => cases h

/-! ### Frames and the commands they spell -/

/-- A frame of a command is its code, its arguments and fill (R162, R163). -/
theorem classifyFrame_command {code : Byte} {args : List Byte} (fill : Nat)
    (h : frameLength code = some (args.length + 1)) :
    classifyFrame (bitsOfBytes (code :: args ++ List.replicate fill 0)) = .command code args fill := by
  rw [List.cons_append, classifyFrame_bytes]
  have hl : (args ++ List.replicate fill (0 : Byte)).length = args.length + fill := by simp
  rw [classifyBytes_command (frameLength_pos h).1 h (by omega)]
  · have hf : (args ++ List.replicate fill (0 : Byte)).length + 1 - (args.length + 1) = fill := by omega
    rw [hf, Nat.add_sub_cancel, List.take_left]
  · rw [Nat.add_sub_cancel, List.drop_left]
    exact fun x hx => List.eq_of_mem_replicate hx

theorem classifyBytes_command_inv {c code : Byte} {rest args : List Byte} {fill : Nat}
    (h : classifyBytes c rest = .command code args fill) :
    c = code ∧ rest = args ++ List.replicate fill 0 ∧ frameLength code = some (args.length + 1) := by
  by_cases hc : c = 0
  · subst hc
    unfold classifyBytes at h
    rw [if_pos rfl] at h
    split at h <;> cases h
  · cases hn : frameLength c with
    | none =>
      rw [classifyBytes_unknown hc hn] at h
      cases h
    | some len =>
      obtain ⟨_, hpos⟩ := frameLength_pos hn
      by_cases hlen : len ≤ rest.length + 1
      · by_cases hx : ∀ x ∈ rest.drop (len - 1), x = 0
        · rw [classifyBytes_command hc hn hlen hx] at h
          obtain ⟨rfl, rfl, rfl⟩ : c = code ∧ rest.take (len - 1) = args ∧ rest.length + 1 - len = fill := by simpa using h
          have hd : rest.drop (len - 1) = List.replicate (rest.length + 1 - len) 0 :=
            List.eq_replicate_iff.2 ⟨by rw [List.length_drop]; omega, hx⟩
          refine ⟨rfl, by rw [← hd, List.take_append_drop], ?_⟩
          rw [hn, List.length_take]
          congr 1
          omega
        · rw [classifyBytes_trailing hc hn hlen (by simpa using hx)] at h
          cases h
      · rw [classifyBytes_short hc hn (Nat.not_le.1 hlen)] at h
        cases h

theorem classifyFrame_command_inv {bits : List Bool} {code : Byte} {args : List Byte} {fill : Nat}
    (h : classifyFrame bits = .command code args fill) :
    bits = bitsOfBytes (code :: args ++ List.replicate fill 0) ∧ frameLength code = some (args.length + 1) := by
  rcases bits_cases bits with rfl | h8 | ⟨c, rest, rfl⟩
  · cases h
  · rw [classifyFrame_partial h8] at h
    cases h
  · rw [classifyFrame_bytes] at h
    obtain ⟨rfl, rfl, hl⟩ := classifyBytes_command_inv h
    exact ⟨rfl, hl⟩

theorem classifyFrame_fill (n : Nat) : classifyFrame (bitsOfBytes (List.replicate (n + 1) 0)) = .fill (n + 1) := by
  rw [List.replicate_succ, classifyFrame_bytes, classifyBytes_fill (fun x hx => List.eq_of_mem_replicate hx),
    List.length_replicate]

theorem classifyFrame_fill_inv {bits : List Bool} {n : Nat} (h : classifyFrame bits = .fill n) :
    1 ≤ n ∧ bits = bitsOfBytes (List.replicate n 0) := by
  rcases bits_cases bits with rfl | h8 | ⟨c, rest, rfl⟩
  · cases h
  · rw [classifyFrame_partial h8] at h
    cases h
  · rw [classifyFrame_bytes] at h
    unfold classifyBytes at h
    split at h
    · next hc =>
      split at h
      · next ha =>
        obtain rfl : rest.length + 1 = n := by simpa using h
        have hr := List.eq_replicate_iff.2 ⟨rfl, (all_zero_iff rest).1 ha⟩
        exact ⟨by omega, by rw [hc, List.replicate_succ, ← hr]⟩
      · cases h
    · split at h
      · cases h
      · split at h
        · cases h
        · split at h <;> cases h

theorem classifyFrame_empty_inv {bits : List Bool} (h : classifyFrame bits = .empty) : bits = [] := by
  rcases bits_cases bits with rfl | h8 | ⟨c, rest, rfl⟩
  · rfl
  · rw [classifyFrame_partial h8] at h
    cases h
  · rw [classifyFrame_bytes] at h
    unfold classifyBytes at h
    split at h
    · split at h <;> cases h
    · split at h
      · cases h
      · split at h
        · cases h
        · split at h <;> cases h

/-- The rows that are frames, with their bits (R163, R168). -/
theorem encodeFrame_cases {i : Instr} {bits : List Bool} (h : encodeFrame i = some bits) :
    (i = .emptyFrame ∧ bits = []) ∨ (∃ n, i = .fillFrame n ∧ bits = bitsOfBytes (List.replicate n 0)) ∨
      i = .badFrame bits ∨ i = .badCommand bits ∨
      ∃ code args fill, frameBytes i = some (code :: args, fill) ∧ frameLength code = some (args.length + 1) ∧
        bits = bitsOfBytes (code :: args ++ List.replicate fill 0) := by
  unfold encodeFrame at h
  split at h
  · exact .inl ⟨rfl, (Option.some.inj h).symm⟩
  · exact .inr (.inl ⟨_, rfl, (Option.some.inj h).symm⟩)
  · exact .inr (.inr (.inl (by rw [Option.some.inj h])))
  · exact .inr (.inr (.inr (.inl (by rw [Option.some.inj h]))))
  · split at h
    · next bytes fill hb =>
      obtain ⟨code, args, rfl, hl, _⟩ := frameBytes_length hb
      exact .inr (.inr (.inr (.inr ⟨code, args, fill, hb, hl, (Option.some.inj h).symm⟩)))
    · cases h

theorem encodeFrame_of_frameBytes {i : Instr} {bytes : List Byte} {fill : Nat} (h : frameBytes i = some (bytes, fill)) :
    encodeFrame i = some (bitsOfBytes (bytes ++ List.replicate fill 0)) := by
  unfold encodeFrame
  split
  · cases h
  · cases h
  · cases h
  · cases h
  · rw [h]

/-- The frame of a well-formed command reads back as that command. -/
theorem decodeFrame_encodeFrame {i : Instr} {bits : List Bool} (hwf : i.wf = true) (h : encodeFrame i = some bits) :
    decodeFrame bits = i := by
  unfold decodeFrame
  rcases encodeFrame_cases h with ⟨rfl, rfl⟩ | ⟨n, rfl, rfl⟩ | rfl | rfl | ⟨code, args, fill, hb, hl, rfl⟩
  · rfl
  · have hn : 1 ≤ n := of_decide_eq_true hwf
    obtain ⟨m, rfl⟩ := Nat.exists_eq_add_of_le' hn
    rw [classifyFrame_fill]
  · obtain ⟨code, hc⟩ := (isBadFrame_iff bits).1 hwf
    rw [hc]
  · obtain ⟨code, hc⟩ := (isBadCommand_iff bits).1 hwf
    rw [hc]
  · rw [classifyFrame_command fill hl]
    dsimp only
    rw [commandOf_of_frameBytes hwf hb]

/-- Whatever bits are clocked in, they are the frame of the command they read as. -/
theorem encodeFrame_decodeFrame (bits : List Bool) :
    (decodeFrame bits).wf = true ∧ encodeFrame (decodeFrame bits) = some bits := by
  unfold decodeFrame
  cases hc : classifyFrame bits with
  | empty => exact ⟨rfl, congrArg some (classifyFrame_empty_inv hc).symm⟩
  | fill n =>
    obtain ⟨hn, hb⟩ := classifyFrame_fill_inv hc
    exact ⟨decide_eq_true hn, congrArg some hb.symm⟩
  | badFrame code => exact ⟨(isBadFrame_iff bits).2 ⟨code, hc⟩, rfl⟩
  | badCommand code => exact ⟨(isBadCommand_iff bits).2 ⟨code, hc⟩, rfl⟩
  | command code args fill =>
    obtain ⟨hb, hl⟩ := classifyFrame_command_inv hc
    obtain ⟨i, hw, hi⟩ := spelt_of_frameLength fill hl
    dsimp only
    rw [commandOf_of_frameBytes hw hi]
    exact ⟨hw, (encodeFrame_of_frameBytes hi).trans (congrArg some hb.symm)⟩

/-- Settles O12: the two directions are the two lemmas before. -/
theorem managementFramesReadBack : Obligations.ManagementFramesReadBack := by
  intro i bits
  constructor
  · rintro rfl
    exact encodeFrame_decodeFrame bits
  · rintro ⟨hwf, h⟩
    exact decodeFrame_encodeFrame hwf h

/-! ### Requests and their phases -/

/-- A request phase reads as a request exactly with the write data its kind calls for; the request then has that kind, the
data, and the fields its kind uses (R115, R117). -/
theorem decodeRequest_spec (p : Port) (r : RequestPhase) (data : List Elem) :
    ((decodeRequest p r data).isSome = true ↔
      data.length =
        match r.kind with
        | .read => 0
        | .write => r.beats.toNat
        | .linkedRead => 0
        | .conditionalWrite => 1
        | .swap => 1
        | .boundedAdd => 2
        | .linkDrop => 0) ∧
    ∀ j ∈ decodeRequest p r data,
      requestOf j =
        some
          (p,
            { kind := r.kind
              addr := if r.kind = .linkDrop then 0 else r.addr
              size := if r.kind = .linkDrop then 0 else r.size
              beats := if r.kind = .read ∨ r.kind = .write then r.beats.toNat else 1
              data := data }) := by
  unfold decodeRequest
  cases hk : r.kind with
  | write =>
    by_cases hd : data.length = r.beats.toNat
    · simp [hd, requestOf]
    · simp [hd]
  | read | linkedRead | linkDrop =>
    cases data with
    | nil => simp [requestOf]
    | cons d ds => simp
  | conditionalWrite | swap =>
    match data with
    | [] => simp
    | [d] => simp [requestOf]
    | _ :: _ :: _ => simp
  | boundedAdd =>
    match data with
    | [] => simp
    | [d] => simp
    | [d, c] => simp [requestOf]
    | _ :: _ :: _ :: _ => simp

/-- The phases of a well-formed request read back as it (R117). -/
theorem decodeRequest_encodeRequest {i : Instr} {p : Port} {r : RequestPhase} {data : List Elem} (hwf : i.wf = true)
    (h : encodeRequest i = some (p, r, data)) : decodeRequest p r data = some i := by
  cases i with
  | write q size addr d =>
    cases h
    have hd : data.length ≤ 31 := of_decide_eq_true hwf
    have hb : (BitVec.ofNat 5 data.length).toNat = data.length := by
      rw [BitVec.toNat_ofNat]
      omega
    exact if_pos hb.symm
  | _ =>
    cases h <;> rfl

/-- Settles O13: reading back, the kind by its three bits, and what a phase reads as. -/
theorem requestPhasesReadBack : Obligations.RequestPhasesReadBack := by
  intro i p r data
  obtain ⟨hsome, hreq⟩ := decodeRequest_spec p r data
  refine ⟨decodeRequest_encodeRequest, fun ha => ?_, fun ha hl => ?_, fun ha hl hc => ?_, fun ha hl hc => ?_, hsome, hreq⟩
  · unfold RequestPhase.kind
    rw [if_pos ha]
  · unfold RequestPhase.kind
    rw [ha, hl, Bool.true_and]
    rfl
  · unfold RequestPhase.kind
    rw [ha, hl, hc]
    rfl
  · unfold RequestPhase.kind
    rw [ha, hl, hc]
    rfl

end Sys2Proof.Proofs
end

section
/-! PROOF. The framing of management commands: what every frame answers, and when a frame does nothing (R163 to R169). -/

namespace Sys2Proof.Proofs

open Sys2Proof Sys2Proof.Machine Sys2Proof.Safety

/-! ### Frames that execute nothing -/

/-- Settles O15: the frame's class fixes what it answers. -/
theorem framesThatExecuteNothing : Obligations.FramesThatExecuteNothing := by
  intro s n bits code h
  refine ⟨congrArg Host.Outcome.next (endFrame_listening h [] id), ?_, fun hc => ?_, fun hc => ?_⟩
  · refine congrArg Host.Outcome.next ((endFrame_listening h (bitsOfBytes (List.replicate n 0)) id).trans ?_)
    rw [bitsOfBytes_length, List.length_replicate]
    rfl
  · change execBadFrame bits s = _
    unfold execBadFrame
    rw [hc]
    refine congrArg Host.Outcome.next ((endFrame_listening h bits _).trans ?_)
    exact respond_spec bits.length code (refuse (clocked bits.length s) .badFrame) rfl
  · change execBadCommand bits s = _
    unfold execBadCommand
    rw [hc]
    refine congrArg Host.Outcome.next ((endFrame_listening h bits _).trans ?_)
    exact respond_spec bits.length code (refuse (clocked bits.length s) .badCommand) rfl

/-! ### What a command answers -/

/-- A command's reply leaves the management port to the frame, and its status and data are those of R169. -/
structure Answers (u : State) (r : MgmtReply) : Prop where
  mgmt : r.state.mgmt = u.mgmt
  length : r.data.length ≤ 45
  status : r.status = .accepted ∨ r.status = .busy ∨ ((r.status = .badArgument ∨ r.status = .pending) ∧ r.data = [])

theorem answers_accept {u v : State} {data : List Byte} (hm : v.mgmt = u.mgmt) (hl : data.length ≤ 45) :
    Answers u (accept v data) := ⟨hm, hl, .inl rfl⟩

theorem answers_badArgument (u : State) : Answers u (refuse u .badArgument) := ⟨rfl, by simp [refuse], .inr (.inr ⟨.inl rfl, rfl⟩)⟩

theorem answers_pending {u v : State} (hm : v.mgmt = u.mgmt) : Answers u (refuse v .pending) :=
  ⟨hm, by simp [refuse], .inr (.inr ⟨.inr rfl, rfl⟩)⟩

theorem answers_ite {u : State} {c : Prop} [Decidable c] {a b : MgmtReply} (ha : Answers u a) (hb : Answers u b) :
    Answers u (if c then a else b) := by
  split
  · exact ha
  · exact hb

theorem answers_shadowEdit {u : State} {edit : State → MgmtReply} (he : Answers u (edit u)) :
    Answers u (shadowEdit edit u) :=
  answers_ite ⟨rfl, by simp [refuse], .inr (.inl rfl)⟩ he

theorem answers_settingReply {u v : State} (hm : v.mgmt = u.mgmt) (number : Nat) : Answers u (settingReply v number) :=
  answers_accept hm (by simp)

theorem answers_writeSettingBody (number : Nat) (value : Half) (u : State) :
    Answers u (writeSettingBody number value (settingEffect number) u) :=
  answers_ite (answers_settingReply (settingWritten_mgmt number value u) number) (answers_badArgument u)

theorem slotRecordBytes_length (r : SlotRecord) : r.bytes.length = 4 := by cases r <;> rfl

theorem answers_writeSlotEdit (index kind owner length donate : Byte) (u : State) :
    Answers u (writeSlotEdit index kind owner length donate u) := by
  unfold writeSlotEdit
  split
  · next r _ _ => exact answers_accept rfl (by simp [slotRecordBytes_length])
  · exact answers_badArgument u

theorem answers_readSlot (t : SlotTable) (i : Fin 32) (u : State) : Answers u (readSlotReply t i u) :=
  answers_accept rfl (by simp [slotRecordBytes_length])

theorem answers_shadowReply {u v : State} (hm : v.mgmt = u.mgmt) : Answers u (shadowReply v) :=
  answers_accept hm (by simp)

theorem answers_commitBody (u : State) : Answers u (commitBody u) := by
  unfold commitBody
  split
  · exact answers_pending rfl
  · exact answers_ite (answers_accept (raise_mgmt ..) (by simp)) (answers_pending rfl)

theorem startScheduler_mgmt (s : State) : (startScheduler s).mgmt = s.mgmt := by
  unfold startScheduler
  split
  · exact frameStart_mgmt s
  · exact enterGap_mgmt s
  · rfl

theorem stopScheduler_mgmt (s : State) : (stopScheduler s).mgmt = s.mgmt := by
  unfold stopScheduler
  split
  · rfl
  · exact enterStopped_mgmt s
  · rfl

theorem answers_onPort {act : Port → State → MgmtReply} {u : State} (b : Byte) (h : ∀ p, Answers u (act p u)) :
    Answers u (onPort b act u) := by
  unfold onPort
  split
  · exact h _
  · exact answers_badArgument u

theorem answers_portReply {p : Port} {u v : State} (hm : v.mgmt = u.mgmt) : Answers u (portReply p v) :=
  answers_accept hm (by simp)

theorem portRecBytes_length (x : PortRec) : x.bytes.length ≤ 45 := by
  have hplace : ∀ e, (placeBytes e).length = 3 := fun e => by cases e <;> rfl
  rw [portRecBytes_eq]
  simp [portBytes, hplace]

theorem noticeBytes_length (r : Option NoticeRecord) (held : Nat) (lost : Byte) : (noticeBytes r held lost).length ≤ 45 := by
  unfold noticeBytes
  cases r <;> simp

theorem linkBytes_length (l : Option Link) (valid granule : Nat) : (linkBytes l valid granule).length ≤ 45 := by
  unfold linkBytes
  cases l <;> simp

theorem answers_purgeBody (b : Byte) (u : State) : Answers u (purgeBody b u) := by
  unfold purgeBody
  refine answers_ite (answers_accept (closeWhere_mgmt ..) (by simp)) ?_
  split
  · exact answers_accept (closeWhere_mgmt ..) (by simp)
  · exact answers_badArgument u

theorem answers_takeNoticeBody (u : State) : Answers u (takeNoticeBody u) := by
  unfold takeNoticeBody
  split
  · exact answers_accept rfl (noticeBytes_length ..)
  · exact answers_accept rfl (noticeBytes_length ..)

theorem answers_recoverBody (u : State) : Answers u (recoverBody u) := by
  have hl : ∀ v, (recoverBytes v).length ≤ 45 := fun v => by simp [recoverBytes]
  unfold recoverBody
  split
  · exact answers_accept rfl (hl u)
  · exact answers_ite (answers_accept rfl (hl _)) ⟨rfl, hl u, .inr (.inl rfl)⟩

theorem answers_recoverForceBody (u : State) : Answers u (recoverForceBody u) := by
  unfold recoverForceBody
  split
  · exact answers_accept rfl (by simp [recoverBytes])
  · exact answers_accept rfl (by simp [recoverBytes])

theorem gateBytes_length (u : State) : (gateBytes u).length ≤ 45 := by
  unfold gateBytes
  simp

/-- A row that executes a command is the frame of its code, arguments and fill around a body that answers as R169 has
it. -/
theorem exec_of_frameBytes {i : Instr} {code : Byte} {args : List Byte} {fill : Nat}
    (h : frameBytes i = some (code :: args, fill)) :
    ∃ body : State → MgmtReply, (∀ s, exec i s = .next (command code args fill body s)) ∧ ∀ u, Answers u (body u) := by
  cases i with
  | readSetting number f =>
    cases h
    exact ⟨_, fun _ => rfl, fun u => answers_ite (answers_settingReply rfl _) (answers_badArgument u)⟩
  | writeSyncMode v f => cases h; exact ⟨_, fun _ => rfl, answers_writeSettingBody 0 v⟩
  | writeSyncWait v f => cases h; exact ⟨_, fun _ => rfl, answers_writeSettingBody 1 v⟩
  | writeLinkLimit v f => cases h; exact ⟨_, fun _ => rfl, answers_writeSettingBody 2 v⟩
  | writeLinkAgeLimit v f => cases h; exact ⟨_, fun _ => rfl, answers_writeSettingBody 3 v⟩
  | writeGranule v f => cases h; exact ⟨_, fun _ => rfl, answers_writeSettingBody 4 v⟩
  | writeMemSize v f => cases h; exact ⟨_, fun _ => rfl, answers_writeSettingBody 5 v⟩
  | writeMemTimeout v f => cases h; exact ⟨_, fun _ => rfl, answers_writeSettingBody 6 v⟩
  | writeWaitLimit v f => cases h; exact ⟨_, fun _ => rfl, answers_writeSettingBody 7 v⟩
  | writeSplitOk v f => cases h; exact ⟨_, fun _ => rfl, answers_writeSettingBody 8 v⟩
  | writeNoticeMask v f => cases h; exact ⟨_, fun _ => rfl, answers_writeSettingBody 9 v⟩
  | writeSetting n v f => cases h; exact ⟨_, fun _ => rfl, answers_writeSettingBody n.toNat v⟩
  | writeSlot index kind owner length donate f =>
    cases h
    exact ⟨_, fun _ => exec_writeSlot .., fun u => answers_shadowEdit (answers_writeSlotEdit ..)⟩
  | readSlot table index f =>
    cases h
    by_cases hv : 1 < table.toNat ∨ 31 < index.toNat
    · exact ⟨_, exec_readSlot_of_invalid hv fill, answers_badArgument⟩
    · have hi : index.toNat < 32 := by omega
      exact ⟨_, exec_readSlot_of_valid (j := ⟨index.toNat, hi⟩) (by omega) rfl fill, fun u => answers_readSlot ..⟩
  | setFrameLen length f =>
    cases h
    exact ⟨_, fun _ => exec_setFrameLen .., fun u =>
      answers_shadowEdit (answers_ite (answers_shadowReply rfl) (answers_badArgument u))⟩
  | commitTable f => cases h; exact ⟨_, fun _ => rfl, answers_commitBody⟩
  | cancelCommit f => cases h; exact ⟨_, fun _ => rfl, fun u => answers_accept rfl (by simp)⟩
  | copyActive f =>
    cases h
    exact ⟨_, fun _ => exec_copyActive .., fun u => answers_shadowEdit (answers_shadowReply rfl)⟩
  | start f => cases h; exact ⟨_, fun _ => rfl, fun u => answers_accept (startScheduler_mgmt u) (by simp)⟩
  | stop f => cases h; exact ⟨_, fun _ => rfl, fun u => answers_accept (stopScheduler_mgmt u) (by simp)⟩
  | portEnable b f => cases h; exact ⟨_, fun _ => rfl, fun u => answers_onPort b fun p => answers_portReply rfl⟩
  | portDisable b f =>
    cases h
    exact ⟨_, fun _ => rfl, fun u => answers_onPort b fun p => answers_portReply (by rw [disablePort_eq]; rfl)⟩
  | portReset b f =>
    cases h
    exact ⟨_, fun _ => rfl, fun u => answers_onPort b fun p => answers_portReply (startReset_mgmt p u)⟩
  | readPort b f =>
    cases h
    exact ⟨_, fun _ => rfl, fun u => answers_onPort b fun p => answers_accept rfl (portRecBytes_length _)⟩
  | readLink k f =>
    cases h
    exact ⟨_, fun _ => rfl, fun u => answers_ite (answers_accept rfl (linkBytes_length ..)) (answers_badArgument u)⟩
  | purgeLinks b f => cases h; exact ⟨_, fun _ => rfl, answers_purgeBody b⟩
  | peekNotice f => cases h; exact ⟨_, fun _ => rfl, fun u => answers_accept rfl (noticeBytes_length ..)⟩
  | takeNotice f => cases h; exact ⟨_, fun _ => rfl, answers_takeNoticeBody⟩
  | recover f => cases h; exact ⟨_, fun _ => rfl, answers_recoverBody⟩
  | recoverForce f => cases h; exact ⟨_, fun _ => rfl, answers_recoverForceBody⟩
  | clearState f => cases h; exact ⟨_, fun _ => rfl, fun u => answers_accept rfl (by simp)⟩
  | readGate f => cases h; exact ⟨_, fun _ => rfl, fun u => answers_accept rfl (gateBytes_length u)⟩
  | _ => cases h

/-! ### Every frame -/

/-- Every row that is a frame is `endFrame` on its bits, with what it makes of the gate. -/
theorem exec_of_encodeFrame {i : Instr} {bits : List Bool} (hwf : i.wf = true) (h : encodeFrame i = some bits) :
    ∃ f : State → State, ∀ s, exec i s = .next (endFrame bits f s) := by
  rcases encodeFrame_cases h with ⟨rfl, rfl⟩ | ⟨n, rfl, rfl⟩ | rfl | rfl | ⟨code, args, fill, hb, hl, rfl⟩
  · exact ⟨id, fun _ => rfl⟩
  · exact ⟨id, fun _ => rfl⟩
  · obtain ⟨code, hc⟩ := (isBadFrame_iff bits).1 hwf
    refine ⟨fun u => respond code (refuse u .badFrame), fun s => ?_⟩
    change execBadFrame bits s = _
    unfold execBadFrame
    rw [hc]
  · obtain ⟨code, hc⟩ := (isBadCommand_iff bits).1 hwf
    refine ⟨fun u => respond code (refuse u .badCommand), fun s => ?_⟩
    change execBadCommand bits s = _
    unfold execBadCommand
    rw [hc]
  · obtain ⟨body, hx, _⟩ := exec_of_frameBytes hb
    exact ⟨_, hx⟩

/-- Settles O17: every frame ends by `endFrame`, which takes none in reset and discards the one in progress at its
release. -/
theorem framesIgnoredInResetAndDiscardedAfterIt : Obligations.FramesIgnoredInResetAndDiscardedAfterIt := by
  intro i bits s hwf h
  obtain ⟨f, hx⟩ := exec_of_encodeFrame hwf h
  refine ⟨fun hr => ?_, fun hr hd => ?_⟩
  · rw [hx, endFrame_reset hr]
  · rw [hx, endFrame_discarding hr hd]
    rfl

/-- Settles O16: the frame's class, its own clause of O15, or the answer of the command it executes. -/
theorem everyFrameIsAnsweredInOrder : Obligations.EveryFrameIsAnsweredInOrder := by
  intro i bits s t h hwf he hx
  rcases encodeFrame_cases he with ⟨rfl, rfl⟩ | ⟨n, rfl, rfl⟩ | rfl | rfl | ⟨code, args, fill, hb, hl, rfl⟩
  · obtain rfl := Host.Outcome.next.inj ((framesThatExecuteNothing s 0 [] 0 h).1.symm.trans hx)
    exact ⟨rfl, rfl, rfl, rfl, rfl⟩
  · obtain rfl := Host.Outcome.next.inj ((framesThatExecuteNothing s n [] 0 h).2.1.symm.trans hx)
    obtain ⟨m, rfl⟩ := Nat.exists_eq_add_of_le' (of_decide_eq_true hwf : 1 ≤ n)
    rw [bitsOfBytes_length, List.length_replicate, classifyFrame_fill]
    exact ⟨rfl, rfl, rfl, rfl, rfl⟩
  · obtain ⟨code, hc⟩ := (isBadFrame_iff bits).1 hwf
    obtain rfl := Host.Outcome.next.inj (((framesThatExecuteNothing s 0 bits code h).2.2.1 hc).symm.trans hx)
    rw [hc]
    exact ⟨rfl, rfl, rfl, rfl⟩
  · obtain ⟨code, hc⟩ := (isBadCommand_iff bits).1 hwf
    obtain rfl := Host.Outcome.next.inj (((framesThatExecuteNothing s 0 bits code h).2.2.2 hc).symm.trans hx)
    rw [hc]
    exact ⟨rfl, rfl, rfl, rfl⟩
  · obtain ⟨body, hbody, hanswers⟩ := exec_of_frameBytes hb
    have hn := commandBits_length code args fill
    obtain ⟨hm, hlen, hstatus⟩ := hanswers (clocked (8 * (args.length + 1 + fill)) s)
    obtain rfl := Host.Outcome.next.inj ((congrArg Host.Outcome.next
      (command_spec h code args fill body hm)).symm.trans ((hbody s).symm.trans hx))
    rw [hn, classifyFrame_command fill hl]
    refine ⟨rfl, rfl, rfl, rfl, hlen, ?_⟩
    change MgmtReply.status _ ≠ _ ∧ MgmtReply.status _ ≠ _ ∧ (MgmtReply.status _ = _ ∨ MgmtReply.status _ = _ → MgmtReply.data _ = _)
    rcases hstatus with hs | hs | ⟨hs | hs, hd⟩ <;> rw [hs]
    · simp
    · simp
    · simp [hd]
    · simp [hd]

end Sys2Proof.Proofs
end

section
/-! PROOF. Raised notices, the reset of the pins, the first frame, and the happenings that are not due (R147 to R151, R7, R41,
R124, R167). -/

namespace Sys2Proof.Proofs

open Sys2Proof Sys2Proof.Machine Sys2Proof.Safety

/-! ### A raise -/

/-- A raise merges exactly into a record of its own coalescing kind (R149). -/
theorem mergeable_eq (q : NoticeQueue) (n : Notice) :
    mergeable q n =
      ((match n with
        | .starved _ => true
        | .syncEarly => true
        | .syncMissing => true
        | _ => false) && q.records.any fun r => r.notice == n) := by
  have hany : (q.records.any fun r => decide (r.notice = n)) = q.records.any fun r => r.notice == n :=
    congrArg q.records.any (funext fun r => (beq_eq_decide r.notice n).symm)
  unfold mergeable
  rw [hany]
  cases n <;> rfl

/-- Settles O54: merge, append, drop. -/
theorem raisedNoticeMergesAppendsOrDrops : Obligations.RaisedNoticeMergesAppendsOrDrops := by
  intro q mask n frame merges added
  have hm : mergeable q n = merges := mergeable_eq q n
  rcases raise_cases q mask n frame with ⟨h, he⟩ | ⟨h, hl, he⟩ | ⟨h, hl, he⟩
  · rw [he, if_pos (hm.symm.trans h)]
    rfl
  · rw [he, if_neg (by simp [← hm, h]), if_pos hl, noticeLine_eq]
  · rw [he, if_neg (by simp [← hm, h]), if_neg (Nat.not_lt.2 hl), satInc_byte]

/-! ### Happenings that are not due -/

theorem takeDrops_of_not_due {p : Port} {s : State} (h : dropDue (s.port p).queue = false) : takeDrops p s = s := by
  unfold takeDrops
  rw [h]
  rfl

theorem exec_slotEnd_of_not_due {s : State} (hs : slotEndDue s = false) (hm : markFirstDue s = false) :
    exec .slotEnd s = .next s := by
  rcases execSlotEnd_cases s with ⟨h, _⟩ | ⟨_, h, _⟩ | ⟨_, _, he⟩
  · exact absurd (hs.symm.trans h) Bool.false_ne_true
  · exact absurd (hm.symm.trans h) Bool.false_ne_true
  · exact he

theorem exec_syncWaitTimerExpiry_of_not_due {s : State} (ht : timerDue s = false) (hm : gapMarkFirstDue s = false) :
    exec .syncWaitTimerExpiry s = .next s := by
  rcases execSyncWaitTimerExpiry_cases s with ⟨h, _⟩ | ⟨_, h, _⟩ | ⟨_, _, he⟩
  · exact absurd (ht.symm.trans h) Bool.false_ne_true
  · exact absurd (hm.symm.trans h) Bool.false_ne_true
  · exact he

theorem exec_wedge_of_not_due {s : State} (hw : wedgeDue s = false) (ha : wedgeAhead s = false) :
    exec .wedge s = .next s := by
  rcases execWedge_cases s with ⟨h | h, _⟩ | ⟨_, _, he⟩
  · exact absurd (hw.symm.trans h) Bool.false_ne_true
  · exact absurd (ha.symm.trans h) Bool.false_ne_true
  · exact he

theorem wedgeDue_iff (s : State) :
    wedgeDue s = true ↔ s.resetAsserted = false ∧ s.mem.state = .ready ∧ ∃ b ∈ s.mem.outstanding, b.deadline = some 0 := by
  simp [wedgeDue, and_assoc]

theorem wedgeAhead_iff (s : State) :
    wedgeAhead s = true ↔
      beatCanPass s = true ∧ s.mem.state = .ready ∧ ∃ b ∈ s.mem.outstanding, b.deadline = some 1 := by
  simp [wedgeAhead, and_assoc]

theorem beatCanPass_iff (s : State) :
    beatCanPass s = true ↔
      s.resetAsserted = false ∧ wedgeDue s = false ∧ slotEndDue s = false ∧ timerDue s = false := by
  simp [beatCanPass, and_assoc]

/-- A beat time cannot pass while RESET_N is asserted or a timed happening is due (log 3). -/
theorem not_beatCanPass_of_due {s : State}
    (h : s.resetAsserted = true ∨ (s.sched.record.isSome = true ∧ s.sched.budget = 0) ∨
      (s.sched.state = .gap ∧ s.sched.timer = some 0) ∨
      (s.mem.state = .ready ∧ ∃ b ∈ s.mem.outstanding, b.deadline = some 0)) : beatCanPass s = false := by
  rw [Bool.eq_false_iff]
  intro hp
  obtain ⟨hr, hw, hs, ht⟩ := (beatCanPass_iff s).1 hp
  rcases h with h | h | h | h
  · exact absurd (hr.symm.trans h) Bool.false_ne_true
  · exact absurd (hs.symm.trans ((slotEndDue_iff s).2 ⟨hr, h⟩)) Bool.false_ne_true
  · exact absurd (ht.symm.trans ((timerDue_iff s).2 ⟨hr, h⟩)) Bool.false_ne_true
  · exact absurd (hw.symm.trans ((wedgeDue_iff s).2 ⟨hr, h⟩)) Bool.false_ne_true

theorem exec_beat_of_not_beatCanPass {s : State} (h : beatCanPass s = false) :
    exec .issueDecision s = .next s ∧ exec .atomicWriteBeat s = .next s := by
  constructor
  · change execIssueDecision s = _
    unfold execIssueDecision
    rw [h]
    rfl
  · change execAtomicWriteBeat s = _
    unfold execAtomicWriteBeat
    rw [h]
    rfl

theorem exec_atomicWriteBeat_of_not_owed {s : State} (h : s.atomic.any (fun a => a.phase != .reading) = false) :
    exec .atomicWriteBeat s = .next s := by
  have hd : atomicWriteDue s = false := by
    rw [Bool.eq_false_iff]
    intro hd
    obtain ⟨⟨a, old, new, clamped, ha, hp⟩, _⟩ := (atomicWriteDue_iff s).1 hd
    simp [ha, hp] at h
  change execAtomicWriteBeat s = _
  unfold execAtomicWriteBeat
  rw [hd, Bool.and_false]
  rfl

/-- Settles O59: in each clause the happening's own test fails. -/
theorem happeningsThatAreNotDueChangeNothing : Obligations.HappeningsThatAreNotDueChangeNothing := by
  intro s p mselLow
  refine ⟨execResetNReleased_of_released mselLow, fun h => ?_, fun h => ?_, fun h => ?_, fun h => ?_, fun h => ?_, fun h => ?_,
    fun h => ?_⟩
  · have hcan : beatCanPass s = true → s.resetAsserted = false := fun hp => ((beatCanPass_iff s).1 hp).1
    refine exec_slotEnd_of_not_due (Bool.eq_false_iff.2 fun hd => ?_) (Bool.eq_false_iff.2 fun hd => ?_)
    · obtain ⟨hr, hrec, hb⟩ := (slotEndDue_iff s).1 hd
      rcases h with h | h | ⟨h, _⟩
      · exact absurd (hr.symm.trans h) Bool.false_ne_true
      · simp [h] at hrec
      · exact h hb
    · obtain ⟨hp, hrec, hb, hst, hlast, hmode⟩ := (markFirstDue_iff s).1 hd
      rcases h with h | h | ⟨_, h | h | h | h | h⟩
      · exact absurd ((hcan hp).symm.trans h) Bool.false_ne_true
      · simp [h] at hrec
      · exact h hb
      · exact absurd (h.symm.trans hp) Bool.false_ne_true
      · exact h hst
      · omega
      · rw [h] at hmode
        cases hmode
  · refine exec_syncWaitTimerExpiry_of_not_due (Bool.eq_false_iff.2 fun hd => ?_) (Bool.eq_false_iff.2 fun hd => ?_)
    · obtain ⟨hr, hst, ht⟩ := (timerDue_iff s).1 hd
      rcases h with h | h | ⟨h, _⟩
      · exact absurd (hr.symm.trans h) Bool.false_ne_true
      · exact h hst
      · exact h ht
    · obtain ⟨hp, hst, ht⟩ := (gapMarkFirstDue_iff s).1 hd
      rcases h with h | h | ⟨_, h | h⟩
      · exact absurd (((beatCanPass_iff s).1 hp).1.symm.trans h) Bool.false_ne_true
      · exact h hst
      · exact h ht
      · exact absurd (h.symm.trans hp) Bool.false_ne_true
  · refine exec_wedge_of_not_due (Bool.eq_false_iff.2 fun hd => ?_) (Bool.eq_false_iff.2 fun hd => ?_)
    · obtain ⟨hr, hst, b, hb, h0⟩ := (wedgeDue_iff s).1 hd
      rcases h with h | h | ⟨h, _⟩
      · exact absurd (hr.symm.trans h) Bool.false_ne_true
      · rw [h] at hst
        cases hst
      · exact h b hb h0
    · obtain ⟨hp, hst, b, hb, h1⟩ := (wedgeAhead_iff s).1 hd
      rcases h with h | h | ⟨_, h | h⟩
      · exact absurd (((beatCanPass_iff s).1 hp).1.symm.trans h) Bool.false_ne_true
      · rw [h] at hst
        cases hst
      · exact absurd (h.symm.trans hp) Bool.false_ne_true
      · exact h b hb h1
  · exact exec_beat_of_not_beatCanPass (not_beatCanPass_of_due h)
  · exact exec_atomicWriteBeat_of_not_owed h
  · refine congrArg Host.Outcome.next ?_
    rcases deliver_cases p s with ⟨_, he⟩ | ⟨e, rest, r, hr, hst, hq, hresp, _⟩
    · exact he
    · rcases h with h | h | h
      · exact absurd (hr.symm.trans h) Bool.false_ne_true
      · exact absurd h hst
      · rw [hq] at h
        exact absurd (h.symm.trans hresp) (by simp)
  · refine congrArg Host.Outcome.next ?_
    by_cases hr : s.resetAsserted = true
    · exact if_pos hr
    · exact (if_neg hr).trans (takeDrops_of_not_due (h.resolve_left hr))

/-! ### The pin reset -/

theorem default_slots (j : Fin 32) : SlotTable.default.slots.get j = if j.val = 0 then .pool 16 else .quiet 1 := by
  revert j
  decide

/-- Settles O57: each field of the reset state, read off. -/
theorem pinResetSetsEveryBlock : Obligations.PinResetSetsEveryBlock := by
  intro s
  exact ⟨pinReset s, rfl, rfl, rfl, ⟨rfl, rfl, default_slots⟩, pinReset_port s, rfl, rfl, rfl, rfl, rfl, rfl, rfl, rfl, rfl,
    rfl, rfl, rfl⟩

/-! ### The release of RESET_N -/

/-- A port as the assertion of RESET_N leaves it (R124). -/
abbrev HeldPort (x : PortRec) : Prop := x = { PortRec.reset with prst := x.prst, presented := x.presented }

theorem raisesStarved_unwatched {x : PortRec} (hw : x.watching = false) (h0 : x.waitCounter = 0) (hold : Bool)
    (limit : Nat) : raisesStarved hold limit x = false := by
  have hc : markCounter hold x = 0 := by
    unfold markCounter
    rw [hw, h0]
    cases hold <;> rfl
  unfold raisesStarved
  rw [hc]
  cases limit <;> rfl

/-- A frame mark that finds no port waiting takes no order of raises (R152; log 8). -/
theorem frameMark_freeCount {s : State} (h : ∀ p, (s.port p).watching = false ∧ (s.port p).waitCounter = 0) :
    (frameMark s).freeCount = s.freeCount := by
  have hnone : (Port.all.filter fun p =>
      raisesStarved ((ageLinks s).mem.state = .wedged || (ageLinks s).mem.wedgedSinceMark) (ageLinks s).settings.waitLimit
        ((ageLinks s).port p)) = [] := by
    refine List.filter_eq_nil_iff.2 fun p _ => ?_
    obtain ⟨hw, h0⟩ := h p
    rw [ageLinks_port, raisesStarved_unwatched ((recordLoss_watching ..).trans hw) ((recordLoss_waitCounter ..).trans h0)]
    exact Bool.false_ne_true
  unfold frameMark markPorts
  dsimp only
  rw [hnone]
  exact ageLinks_freeCount s

theorem frameStart_freeCount {s : State} (h : ∀ p, (s.port p).watching = false ∧ (s.port p).waitCounter = 0) :
    (frameStart s).freeCount = s.freeCount := by
  have hp : ∀ p, (startSlot 0 ((countFrame s).setSched
      { (countFrame s).sched with state := .running, timer := none })).port p = s.port p := fun p => by
    rw [startSlot_frame, countFrame_spec]
    rfl
  have hc : (countFrame s).freeCount = s.freeCount := by rw [countFrame_spec]
  unfold frameStart
  dsimp only
  rw [frameMark_freeCount (fun p => by rw [hp]; exact h p), startSlot_freeCount]
  exact hc

theorem counterAtMark_held {s : State} {p : Port} (hx : HeldPort (s.port p)) : counterAtMark s p = 0 := by
  unfold counterAtMark
  rw [hx]
  simp [PortRec.reset]

theorem starvesAtMark_held {s : State} {p : Port} (hx : HeldPort (s.port p)) : starvesAtMark s p = false := by
  unfold starvesAtMark
  rw [counterAtMark_held hx]
  cases s.settings.waitLimit <;> rfl

/-- A frame mark leaves a port that waits for nothing as it is (R130, R131). -/
theorem portAtMark_held {s : State} {p : Port} (hl : s.links = []) (hx : HeldPort (s.port p)) :
    portAtMark s p = s.port p := by
  unfold portAtMark agedLinks
  rw [counterAtMark_held hx, starvesAtMark_held hx, hl, hx]
  rfl

/-- What the first frame start makes of a gate held in reset (R7, R23, R42). -/
theorem frameStart_held {s : State} (h : HeldInReset s) (mselLow : Bool) :
    frameStart { released mselLow s with resetAsserted := false } =
      { released mselLow s with
        resetAsserted := false
        sched :=
          { state := .running, slot := 0, budget := 16, record := some (.pool 16), grantee := none, frameNumber := 1,
            commit := .none, timer := none, syncInForce := .internal, poolNext := 0 }
        frameMarks := 1 } := by
  obtain ⟨_, hsched, hactive, _, hports, hlinks, hatomic, hmem, hnotices, _, hset, _, _, hmarks, _⟩ := h
  set u : State := { released mselLow s with resetAsserted := false } with hu
  have usched : u.sched = _ := hsched
  have uactive : u.active = SlotTable.default := hactive
  have uports : ∀ p, HeldPort (u.port p) := hports
  have ulinks : u.links = [] := hlinks
  have umem : u.mem = _ := hmem
  have uset : u.settings = Settings.reset := hset
  have umarks : u.frameMarks = 0 := hmarks
  have hfree := frameStart_freeCount (s := u) fun p => by
    rw [uports p]
    exact ⟨rfl, rfl⟩
  have hready : ∀ p, portReady u 16 p = false := fun p => by
    unfold portReady
    rw [uports p]
    rfl
  obtain ⟨tactive, hgrant, hwindow, tports, tlinks, ⟨order, hperm, tnotices⟩, ht⟩ := frameStart_spec u
  generalize frameStart u = t at *
  have tactive' : t.active = u.active := by
    rw [tactive, usched]
    rfl
  have tslot : t.active.slots.get 0 = .pool 16 := by
    rw [tactive', uactive]
    rfl
  rw [tslot] at hgrant hwindow ht
  have hgrant' : t.sched.grantee = none ∧ t.sched.poolNext = u.sched.poolNext := by
    dsimp only [Granted] at hgrant
    rw [if_neg (by rw [umem]; exact MemState.noConfusion)] at hgrant
    rcases hgrant with ⟨k, hk, _⟩ | ⟨_, hg, hn⟩
    · exact absurd ((hready _).symm.trans hk) Bool.false_ne_true
    · exact ⟨hg, hn⟩
  obtain ⟨hgrantee, hnext⟩ := hgrant'
  dsimp only [WindowAtStart] at hwindow
  obtain ⟨hquiet, hmaint, hgiven, hcount⟩ := hwindow
  have tports' : t.ports = u.ports := ports_ext fun p => (tports p).trans (portAtMark_held ulinks (uports p))
  have tlinks' : t.links = u.links := by
    rw [tlinks, agedLinks, ulinks]
    rfl
  have horder : order = [] := by
    rw [List.filter_eq_nil_iff.2 fun p _ => by rw [starvesAtMark_held (uports p)]; exact Bool.false_ne_true] at hperm
    exact hperm.eq_nil
  have tnotices' : t.notices = u.notices := by
    rw [tnotices, horder, usched]
    rfl
  have hmemory : { u.mem with
      quietOpen := t.mem.quietOpen, maintGrant := t.mem.maintGrant, windowGiven := t.mem.windowGiven,
      wedgedSinceMark := u.mem.state == .wedged } = u.mem := by
    rw [hquiet, hmaint, hgiven, umem]
    rfl
  have hcounters : { u.counters with maintWindows := t.counters.maintWindows } = u.counters := by
    rw [hcount]
    exact congrArg (fun n => { u.counters with maintWindows := n }) (BitVec.add_zero _)
  refine ht.trans ?_
  rw [hmemory, hcounters, tports', tlinks', tnotices', hfree, hgrantee, hnext, tactive', usched, umarks]
  rfl

/-- A port reset at a port that holds nothing only makes it RESETTING (R127). -/
theorem startReset_held {s : State} {p : Port} (hl : s.links = []) (hx : HeldPort (s.port p)) :
    startReset p s = s.setPort p { s.port p with state := .resetting } := by
  have hne : (s.port p).state ≠ .resetting := by
    rw [hx]
    exact PortState.noConfusion
  have hspec := startReset_spec p s hne
  dsimp only [ResetStarted] at hspec
  obtain ⟨hself, hother, ht⟩ := hspec
  have hkept : (s.links.filter fun l => !(l.holder == p)) = s.links := by
    rw [hl]
    rfl
  rw [hkept] at ht
  refine (state_ext_ports (s := s.setPort p { s.port p with state := .resetting }) (fun q => ?_) ht).symm
  by_cases hq : q = p
  · subst hq
    rw [hself, port_setPort_self, hx, hl]
    rfl
  · rw [hother q hq, port_setPort_ne _ _ hq]

/-- The port resets of the release, at ports that hold nothing (R124). -/
theorem startResets_held : ∀ (ports : List Port) {s : State}, ports.Nodup → s.links = [] →
    (∀ p ∈ ports, HeldPort (s.port p)) →
    startResets ports s = { s with ports := (startResets ports s).ports } ∧
      ∀ q, (startResets ports s).port q =
        if q ∈ ports ∧ (s.port q).prst = true then { s.port q with state := .resetting } else s.port q
  | [], s, _, _, _ => ⟨rfl, fun q => by simp [startResets]⟩
  | p :: rest, s, hn, hl, hp => by
    obtain ⟨hnot, hrest⟩ := List.nodup_cons.1 hn
    have hheld := hp p List.mem_cons_self
    change startResets rest (if (s.port p).prst then startReset p s else s) = { s with
        ports := (startResets rest (if (s.port p).prst then startReset p s else s)).ports } ∧ ∀ q,
      (startResets rest (if (s.port p).prst then startReset p s else s)).port q = _
    rw [startReset_held hl hheld]
    have hne : ∀ q ∈ rest, q ≠ p := fun q hq h => hnot (h ▸ hq)
    split
    · next hprst =>
      have hq : ∀ q ≠ p, (s.setPort p { s.port p with state := .resetting }).port q = s.port q := fun q h =>
        port_setPort_ne _ _ h
      obtain ⟨he, hports⟩ := startResets_held rest (s := s.setPort p { s.port p with state := .resetting }) hrest hl
        fun q hm => by rw [hq q (hne q hm)]; exact hp q (List.mem_cons_of_mem p hm)
      refine ⟨he, fun q => ?_⟩
      rw [hports]
      by_cases h : q = p
      · subst h
        rw [port_setPort_self, if_neg (fun hc => hnot hc.1), if_pos ⟨List.mem_cons_self, hprst⟩]
      · rw [hq q h]
        simp [h]
    · next hprst =>
      obtain ⟨he, hports⟩ := startResets_held rest (s := s) hrest hl fun q hm => hp q (List.mem_cons_of_mem p hm)
      refine ⟨he, fun q => ?_⟩
      rw [hports]
      by_cases h : q = p
      · subst h
        simp [hprst]
      · simp [h]

theorem heldInReset_pinReset (s : State) : HeldInReset (pinReset s) :=
  ⟨rfl, rfl, rfl, rfl, fun p => by rw [pinReset_port]; rfl, rfl, rfl, rfl, rfl, rfl, rfl, rfl, rfl, rfl, rfl⟩

/-- Settles O58: the first frame start, and then the port resets of the lines that are asserted. -/
theorem releaseOfResetStartsTheFirstFrame : Obligations.ReleaseOfResetStartsTheFirstFrame := by
  refine ⟨fun s0 s h => ?_, fun s mselLow h => ?_⟩
  · cases h
    exact heldInReset_pinReset s0
  · have hx := execResetNReleased_of_reset mselLow h.1
    rw [frameStart_held h mselLow] at hx
    obtain ⟨_, _, _, _, hports, hlinks, _⟩ := h
    refine ⟨_, hx, ?_⟩
    set u : State := { released mselLow s with
      resetAsserted := false
      sched :=
        { state := .running, slot := 0, budget := 16, record := some (.pool 16), grantee := none, frameNumber := 1,
          commit := .none, timer := none, syncInForce := .internal, poolNext := 0 }
      frameMarks := 1 } with hu
    obtain ⟨he, hp⟩ := startResets_held Port.all (s := u) (by decide) hlinks fun p _ => hports p
    refine ⟨startResets_sched Port.all u, fun p => ?_, ?_⟩
    · have hmem : p ∈ Port.all := by fin_cases p <;> decide
      have hup : u.port p = s.port p := rfl
      rw [hp, hup]
      split
      · next hc => rw [if_pos hc.2]
      · next hc =>
        have hstate : (s.port p).state = .opened := congrArg PortRec.state (hports p)
        rw [if_neg fun hprst => hc ⟨hmem, hprst⟩, ← hstate]
    · rw [startResets_sched]
      exact he

end Sys2Proof.Proofs
end

section
/-! PROOF. The end of a slot, acceptance and delivery, the wedge, and what changes the tables (R44, R45, R51, R53, R118 to R123,
R140 to R142). -/

namespace Sys2Proof.Proofs

open Sys2Proof Sys2Proof.Machine Sys2Proof.Safety

/-! ### The end of a slot -/

theorem exec_slotEnd_of_due {s : State} (h : slotEndDue s = true) : exec .slotEnd s = .next (endSlot s) :=
  congrArg Host.Outcome.next (if_pos h)

theorem exec_slotEnd_of_markFirstDue {s : State} (h : markFirstDue s = true) : exec .slotEnd s = .next (markFirst s) := by
  obtain ⟨hp, _⟩ := (markFirstDue_iff s).1 h
  obtain ⟨_, _, hs, _⟩ := (beatCanPass_iff s).1 hp
  refine congrArg Host.Outcome.next ?_
  rw [hs, h]
  rfl

/-- Settles O28: the four ends of a slot, and the mark ahead of the last beat time, which still passes. -/
theorem slotEndStartsWhatFollows : Obligations.SlotEndStartsWhatFollows := by
  intro s hr hrec u v last
  have hend : s.sched.budget = 0 → exec .slotEnd s = .next (endSlot s) := fun hb =>
    exec_slotEnd_of_due ((slotEndDue_iff s).2 ⟨hr, hrec, hb⟩)
  have hnot : s.sched.state = .running → s.sched.state ≠ .draining := fun h => by
    rw [h]
    exact SchedState.noConfusion
  refine ⟨fun hb hst hlt _ => ?_, fun hb hst hl hm => ?_, fun hb hst hl hm => ?_, fun hb hst => ?_,
    fun hb hp hst hl hm => ?_⟩
  · refine ⟨_, hend hb, ?_⟩
    rcases endSlot_cases s with ⟨h, _⟩ | ⟨_, _, h⟩ | ⟨_, h, _⟩ | ⟨_, h, _⟩
    · exact absurd h (hnot hst)
    · exact h
    · exact absurd hlt (Nat.not_lt.2 h)
    · exact absurd hlt (Nat.not_lt.2 h)
  · refine ⟨_, hend hb, ?_⟩
    rcases endSlot_cases s with ⟨h, _⟩ | ⟨_, h, _⟩ | ⟨_, _, _, h⟩ | ⟨_, _, h, _⟩
    · exact absurd h (hnot hst)
    · exact absurd h (Nat.not_lt.2 hl)
    · have hv : v = (slotClosed s).setSched { s.sched with syncInForce := .internal } := by
        unfold v
        rw [hm]
        rfl
      rw [hv]
      exact h
    · exact absurd (hm.symm.trans h) SyncMode.noConfusion
  · refine ⟨_, hend hb, ?_⟩
    rcases endSlot_cases s with ⟨h, _⟩ | ⟨_, h, _⟩ | ⟨_, _, h, _⟩ | ⟨_, _, _, h⟩
    · exact absurd h (hnot hst)
    · exact absurd h (Nat.not_lt.2 hl)
    · exact absurd (hm.symm.trans h) SyncMode.noConfusion
    · exact h
  · refine ⟨_, hend hb, ?_⟩
    rcases endSlot_cases s with ⟨_, h⟩ | ⟨h, _⟩ | ⟨h, _⟩ | ⟨h, _⟩
    · exact h
    · exact absurd hst h
    · exact absurd hst h
    · exact absurd hst h
  · have hdue := (markFirstDue_iff s).2 ⟨hp, hrec, hb, hst, hl, hm⟩
    obtain ⟨m, htaken, hstart⟩ := markFirst_spec s
    have hpass : beatCanPass m = true := (beatCanPass_of_markTaken htaken).trans hp
    exact ⟨_, exec_slotEnd_of_markFirstDue hdue, m, beatTime m, htaken, exec_issueDecision_of_beatCanPass hpass, hstart⟩

/-! ### The wedge -/

theorem exec_wedge_of_due {s : State} (h : wedgeDue s = true ∨ wedgeAhead s = true) : exec .wedge s = .next (takeWedge s) :=
  congrArg Host.Outcome.next (if_pos (by simpa using h))

/-- A deadline that passes in a beat time makes the wedge due behind it (R135, R140). -/
theorem wedgeDue_beatTime {s : State} (hr : s.resetAsserted = false) (hs : s.mem.state = .ready)
    (hd : ∃ b ∈ s.mem.outstanding, b.deadline = some 0 ∨ b.deadline = some 1) : wedgeDue (beatTime s) = true := by
  obtain ⟨new, hfacts⟩ := beatTimeFacts s
  obtain ⟨b, hb, hdead⟩ := hd
  have hstate : (beatTime s).mem.state = s.mem.state := by
    rw [(beatTime_frame s).1]
  refine (wedgeDue_iff _).2 ⟨(beatTime_resetAsserted s).trans hr, hstate.trans hs,
    { b with deadline := b.deadline.map (· - 1) }, ?_, ?_⟩
  · rw [hfacts.outstanding]
    exact List.mem_append_left _ (List.mem_map_of_mem hb)
  · rcases hdead with h | h <;> rw [h] <;> rfl

/-- Settles O41: the wedge behind the beat time at hand, and the wedge ahead of it. -/
theorem wedgeFailsWhatIsOutstanding : Obligations.WedgeFailsWhatIsOutstanding := by
  intro s hr hs hdue n
  have hdead : ∃ b ∈ s.mem.outstanding, b.deadline = some 0 ∨ b.deadline = some 1 := by
    rcases hdue with h | ⟨_, h⟩
    · obtain ⟨b, hb, h0⟩ := List.any_eq_true.1 h
      exact ⟨b, hb, .inl (beq_iff_eq.1 h0)⟩
    · obtain ⟨b, hb, h1⟩ := List.any_eq_true.1 h
      exact ⟨b, hb, .inr (beq_iff_eq.1 h1)⟩
  have hwedge : wedgeDue s = true ∨ wedgeAhead s = true := by
    rcases hdue with h | ⟨hp, h⟩
    · obtain ⟨b, hb, h0⟩ := List.any_eq_true.1 h
      exact .inl ((wedgeDue_iff s).2 ⟨hr, hs, b, hb, beq_iff_eq.1 h0⟩)
    · obtain ⟨b, hb, h1⟩ := List.any_eq_true.1 h
      exact .inr ((wedgeAhead_iff s).2 ⟨hp, hs, b, hb, beq_iff_eq.1 h1⟩)
  obtain ⟨hports, hwindow⟩ := takeWedge_spec s
  refine ⟨fun hp => ⟨_, exec_issueDecision_of_beatCanPass hp, _,
    exec_wedge_of_due (.inl (wedgeDue_beatTime hr hs hdead)), (takeWedge_mem _).1, ?_⟩,
    _, exec_wedge_of_due hwedge, fun hp => ⟨_, exec_issueDecision_of_beatCanPass (beatCanPass_takeWedge hp), ?_⟩, hports,
    hwindow⟩
  · obtain ⟨new, hfacts⟩ := beatTimeFacts s
    rw [(takeWedge_mem _).2.2]
    unfold newBeats
    rw [hfacts.outstanding, List.length_append, List.length_drop, List.length_append]
    unfold agedBeats
    rw [List.length_map, Nat.add_sub_cancel_left]
  · exact noBeat_of_blocked (.inl (takeWedge_mem s).1)

/-! ### Acceptance -/

/-- The first of a list of checks that fails. -/
theorem firstOf_cons (fails : Bool) (why : RefuseReason) (rest : List (Bool × RefuseReason)) :
    (((fails, why) :: rest).find? fun c => c.1).map (fun c => c.2) =
      if fails then some why else (rest.find? fun c => c.1).map fun c => c.2 := by
  cases fails <;> rfl

/-- Settles O44: the model's nested tests are the list of checks. -/
theorem acceptanceChecksInOrder : Obligations.AcceptanceChecksInOrder := by
  intro r code closed bytes burst last other checks
  have hburst : isBurst r.kind = burst := by
    unfold burst
    cases r.kind <;> rfl
  have hatomic : isAtomic r.kind = (r.kind == .swap || r.kind == .boundedAdd) := by cases r.kind <;> rfl
  have hlast : r.lastByte = last := by
    unfold Request.lastByte Request.count
    rw [hburst]
    rfl
  have hbytes : r.bytes = bytes := rfl
  have hwindow : memSize code = 64 * 1024 * 2 ^ code := rfl
  unfold checks
  rw [firstOf_cons, firstOf_cons, firstOf_cons, firstOf_cons, firstOf_cons, firstOf_cons]
  unfold firstFailure Config.burstMax
  dsimp only
  rw [hburst, hatomic, hlast, hbytes, hwindow]
  by_cases hk : r.kind = .linkDrop
  · have hother : other = false := by
      unfold other
      rw [hk]
      rfl
    have hno : burst = false := by
      unfold burst
      rw [hk]
      rfl
    rw [if_pos hk, hother, hno]
    simp
  · have hother : other = true := bne_iff_ne.2 hk
    have hsize : sizeValid r.size = !decide (4 ≤ r.size.toNat) := by
      unfold sizeValid
      rw [← decide_not]
      exact decide_eq_decide.2 Nat.not_le.symm
    rw [if_neg hk, hother, hsize]
    simp

/-- The command of a request presents it at its port (R115, R118). -/
theorem exec_of_requestOf {i : Instr} {p : Port} {r : Request} (h : requestOf i = some (p, r)) (s : State) :
    exec i s = .next (presentRequest p r s) := by
  cases i <;> cases h <;> rfl

theorem exec_of_canTake {i : Instr} {p : Port} {r : Request} {s : State} (h : requestOf i = some (p, r))
    (hp : (s.port p).presented = none) (hc : canTake s p = true) : Completes (exec i s) fun t => Taken s t p r := by
  rcases presentRequest_cases p r s with ⟨hn, _⟩ | ⟨_, _, he⟩ | ⟨_, hn, _⟩
  · exact absurd hp hn
  · exact ⟨_, (exec_of_requestOf h s).trans (congrArg Host.Outcome.next he), takeRequest_spec p r s⟩
  · exact absurd (hn.symm.trans hc) Bool.false_ne_true

/-- RESET_N, RESETTING and a full queue withhold (R120, R124). -/
theorem canTake_of_withheld {s : State} {p : Port}
    (h : s.resetAsserted = true ∨ (s.port p).state = .resetting ∨
      (((s.port p).state = .opened ∨ (s.port p).state = .halting) ∧ 4 ≤ (s.port p).queue.length)) :
    canTake s p = false := by
  rw [Bool.eq_false_iff]
  intro hc
  obtain ⟨hr, hst⟩ := (canTake_iff s p).1 hc
  rcases h with h | h | ⟨h, hl⟩
  · exact absurd (hr.symm.trans h) Bool.false_ne_true
  · simp [h] at hst
  · rcases hst with hd | ⟨_, hlt⟩
    · simp [hd] at h
    · omega

/-- Settles O45: whether the port can take the request decides. -/
theorem requestsAreTakenOrWithheld : Obligations.RequestsAreTakenOrWithheld := by
  intro i p r s h x
  refine ⟨fun hp hr hst => ?_, fun hp hr hst hl => ?_, fun hp hw => ?_, fun hp => ?_, fun hp hr hst => ?_, fun hw => ?_⟩
  · exact exec_of_canTake h hp ((canTake_iff s p).2 ⟨hr, .inl hst⟩)
  · exact exec_of_canTake h hp ((canTake_iff s p).2 ⟨hr, .inr ⟨hst, hl⟩⟩)
  · have hc := canTake_of_withheld hw
    rcases presentRequest_cases p r s with ⟨hn, _⟩ | ⟨_, hn, _⟩ | ⟨_, _, he⟩
    · exact absurd hp hn
    · exact absurd (hc.symm.trans hn) Bool.false_ne_true
    · exact ⟨_, (exec_of_requestOf h s).trans (congrArg Host.Outcome.next he), port_setPort_self _ _ _,
        fun q hq => port_setPort_ne _ _ hq, rfl⟩
  · rcases presentRequest_cases p r s with ⟨_, he⟩ | ⟨hn, _⟩ | ⟨hn, _⟩
    · exact (exec_of_requestOf h s).trans (congrArg Host.Outcome.next he)
    · exact absurd hn hp
    · exact absurd hn hp
  · have hc := (canTake_iff s p).2 ⟨hr, hst⟩
    rcases takeWithheld_cases p s with ⟨r', hr', _, he⟩ | ⟨hn | hn, _⟩
    · obtain rfl : r = r' := Option.some.inj (hp.symm.trans hr')
      exact ⟨_, congrArg Host.Outcome.next he, takeRequest_spec p r _⟩
    · exact absurd (hn.symm.trans hp) (by simp)
    · exact absurd (hn.symm.trans hc) Bool.false_ne_true
  · refine congrArg Host.Outcome.next ?_
    rcases takeWithheld_cases p s with ⟨r', hr', hc, _⟩ | ⟨_, he⟩
    · rcases hw with hn | hw
      · exact absurd (hn.symm.trans hr') (by simp)
      · exact absurd ((canTake_of_withheld hw).symm.trans hc) Bool.false_ne_true
    · exact he

/-! ### Delivery -/

/-- Settles O46: the delivery either ends the port's HALTING or only frees the entry. -/
theorem deliveryFreesTheOldestEntry : Obligations.DeliveryFreesTheOldestEntry := by
  intro p s e rest r hr hst hq hresp x ends n
  rcases deliver_cases p s with ⟨hd, _⟩ | ⟨e', rest', r', _, _, hq', hresp', he⟩
  · unfold deliverable at hd
    rw [if_neg (by simp [hr, hst]), hq] at hd
    exact absurd (hd.symm.trans hresp) (by simp)
  · obtain ⟨rfl, rfl⟩ := List.cons.inj (hq.symm.trans hq')
    obtain rfl := Option.some.inj (hresp.symm.trans hresp')
    refine ⟨deliver p s, rfl, ?_⟩
    rw [he]
    by_cases hend : rest = [] ∧ (s.port p).state = .halting
    · have hends : ends = true := by simp [ends, x, hend]
      have hn : n = heldBy p s.links := by
        unfold n
        rw [hends]
        rfl
      rw [if_pos hend, purgePort_eq, hends, hn, hend.1]
      refine ⟨?_, fun q hq => ?_, rfl⟩
      · rw [port_setPort_self, port_setPort_self, recordLoss_eq, List.isEmpty_nil, Bool.not_true, Bool.and_false]
        rfl
      · rw [port_setPort_ne _ _ hq]
        exact port_setPort_ne _ _ hq
    · have hends : ends = false := by simpa [ends, x] using hend
      have hn : n = 0 := by
        unfold n
        rw [hends]
        rfl
      rw [if_neg hend, hends, hn]
      refine ⟨?_, fun q hq => port_setPort_ne _ _ hq, rfl⟩
      rw [port_setPort_self]
      cases rest <;> simp [x]

end Sys2Proof.Proofs
end

section
/-! PROOF. What changes the slot tables (R5, R6, R8, R53). -/

namespace Sys2Proof.Proofs

open Sys2Proof Sys2Proof.Machine Sys2Proof.Safety

/-! ### Happenings that leave the tables or swap them -/

/-- The shadow stays, and the active table stays or takes the shadow at a frame start or on entering STOPPED (R53). -/
def Swaps (s t : State) : Prop :=
  t.shadow = s.shadow ∧
    (t.active = s.active ∨
      (t.active = s.shadow ∧ t.sched.commit = .none ∧ s.sched.commit = .pending ∧
        (t.frameMarks = s.frameMarks + 1 ∨ t.sched.state = .stopped)))

theorem swaps_of_kept {s t : State} (ha : t.active = s.active) (hs : t.shadow = s.shadow) : Swaps s t := ⟨hs, .inl ha⟩

/-- The tables after the swap of a pending commit. -/
theorem swaps_of_ite {s t : State} (hs : t.shadow = s.shadow)
    (ha : t.active = if s.sched.commit = .pending then s.shadow else s.active) (hc : t.sched.commit = .none)
    (hm : t.frameMarks = s.frameMarks + 1 ∨ t.sched.state = .stopped) : Swaps s t := by
  refine ⟨hs, ?_⟩
  by_cases hp : s.sched.commit = .pending
  · exact .inr ⟨ha.trans (if_pos hp), hc, hp, hm⟩
  · exact .inl (ha.trans (if_neg hp))

theorem swaps_of_frameStarted {s t : State} (h : FrameStarted s t) : Swaps s t := by
  dsimp only [FrameStarted] at h
  obtain ⟨ha, _, _, _, _, _, ht⟩ := h
  exact swaps_of_ite (by rw [ht]) ha (by rw [ht]) (.inl (by rw [ht]))

theorem swaps_of_stopped {s t : State} (h : Stopped s t) : Swaps s t := by
  dsimp only [Stopped] at h
  refine swaps_of_ite (by rw [h]) ?_ (by rw [h]) (.inr (by rw [h]))
  rw [h]
  exact if_congr beq_iff_eq rfl rfl

/-- A frame mark ahead of the last beat time: the swap, the beat time, and the start of slot 0. -/
theorem swaps_of_markTaken {s u v t : State} (hu : MarkTaken s u) (hva : v.active = (beatTime u).active)
    (hvs : v.shadow = (beatTime u).shadow) (hvc : v.sched.commit = (beatTime u).sched.commit)
    (hvm : v.frameMarks = (beatTime u).frameMarks) (ht : SlotStarted v t 0) : Swaps s t := by
  dsimp only [MarkTaken] at hu
  dsimp only [SlotStarted] at ht
  obtain ⟨_, _, _, hu⟩ := hu
  obtain ⟨_, _, ht⟩ := ht
  have hcommit : (beatTime u).sched.commit = u.sched.commit := by rw [beatTime_sched]
  refine swaps_of_ite ?_ ?_ ?_ (.inl ?_)
  · rw [ht, hvs, beatTime_shadow, hu]
  · rw [ht, hva, beatTime_active, hu]
  · rw [ht, hvc, hcommit, hu]
  · rw [ht, hvm, beatTime_frameMarks, hu]

theorem swaps_markFirst (s : State) : Swaps s (markFirst s) := by
  obtain ⟨u, hu, ht⟩ := markFirst_spec s
  refine swaps_of_markTaken hu ?_ ?_ ?_ ?_ ht <;> rfl

theorem swaps_gapMarkFirst (s : State) : Swaps s (gapMarkFirst s) := by
  obtain ⟨u, hu, ht⟩ := gapMarkFirst_spec s
  refine swaps_of_markTaken hu ?_ ?_ ?_ ?_ ht <;> rfl

theorem swaps_endSlot (s : State) : Swaps s (endSlot s) := by
  rcases endSlot_cases s with ⟨_, h⟩ | ⟨_, _, h⟩ | ⟨_, _, _, h⟩ | ⟨_, _, _, h⟩
  · have hu := swaps_of_stopped h
    exact hu
  · dsimp only [SlotStarted] at h
    obtain ⟨_, _, ht⟩ := h
    exact swaps_of_kept (by rw [ht]; rfl) (by rw [ht]; rfl)
  · have hu := swaps_of_frameStarted h
    exact hu
  · dsimp only [InGap] at h
    exact swaps_of_kept (by rw [h]; rfl) (by rw [h]; rfl)

/-! ### Management frames -/

/-- A frame is not taken, is discarded, or is carried out on the gate that has clocked it (R165, R167). -/
theorem endFrame_cases (bits : List Bool) (f : State → State) (s : State) :
    endFrame bits f s = s ∨ endFrame bits f s = s.setMgmt { s.mgmt with frame := .none } ∨
      (Listening s ∧ endFrame bits f s = f (clocked bits.length s)) := by
  by_cases hr : s.resetAsserted = true
  · exact .inl (endFrame_reset hr bits f)
  · have hr' : s.resetAsserted = false := Bool.eq_false_iff.2 hr
    by_cases hd : s.mgmt.frame = .discarding
    · exact .inr (.inl (endFrame_discarding hr' hd bits f))
    · exact .inr (.inr ⟨⟨hr', hd⟩, endFrame_listening ⟨hr', hd⟩ bits f⟩)

theorem swaps_endFrame {f : State → State} (h : ∀ u, Swaps u (f u)) (bits : List Bool) (s : State) :
    Swaps s (endFrame bits f s) := by
  rcases endFrame_cases bits f s with he | he | ⟨_, he⟩
  · rw [he]
    exact swaps_of_kept rfl rfl
  · rw [he]
    exact swaps_of_kept rfl rfl
  · rw [he]
    exact h (clocked bits.length s)

/-- A command swaps when its body does. -/
theorem swaps_command {body : State → MgmtReply} (h : ∀ u, Swaps u (body u).state) (code : Byte) (args : List Byte)
    (fill : Nat) (s : State) : Swaps s (command code args fill body s) :=
  swaps_endFrame (f := fun u => respond code (body u)) (fun u => h u) _ s

theorem swaps_refl (s : State) : Swaps s s := swaps_of_kept rfl rfl

theorem swaps_settingEffect (number : Nat) (old : Settings) (s : State) : Swaps s (settingEffect number old s) := by
  unfold settingEffect
  split
  · unfold syncModeEffect
    split
    · have h := swaps_of_frameStarted (frameStart_spec (s.setSched { s.sched with syncInForce := .internal }))
      exact h
    · exact swaps_of_kept rfl rfl
    · exact swaps_refl s
  · unfold linkLimitEffect
    split
    · exact swaps_of_kept rfl rfl
    · exact swaps_refl s
  · unfold granuleEffect
    split
    · exact swaps_refl s
    · exact swaps_of_kept rfl rfl
  · exact swaps_of_kept rfl rfl
  · exact swaps_refl s

theorem swaps_writeSettingBody (number : Nat) (value : Half) (u : State) :
    Swaps u (writeSettingBody number value (settingEffect number) u).state := by
  unfold writeSettingBody
  split
  · exact swaps_settingEffect number u.settings (u.setSettings (storeSetting u.settings number value.toNat))
  · exact swaps_refl u

theorem swaps_onPort {act : Port → State → MgmtReply} {b : Byte} {u : State} (h : ∀ p, Swaps u (act p u).state) :
    Swaps u (onPort b act u).state := by
  unfold onPort
  split
  · exact h _
  · exact swaps_refl u

/-! ### Commands -/

/-- The rows that change the tables otherwise than by a frame start or on entering STOPPED. -/
def writesTables : Instr → Bool
  | .resetNAsserted => true
  | .commitTable _ => true
  | .writeSlot .. => true
  | .setFrameLen .. => true
  | .copyActive _ => true
  | _ => false

theorem swaps_next {s u : State} (h : Swaps s u) : ∀ t : State, Host.Outcome.next u = (.next t : Host.Outcome State Fault Refusal) →
    Swaps s t := by
  rintro t ⟨⟩
  exact h

theorem swaps_resetNReleased (mselLow : Bool) (s : State) : ∀ t, execResetNReleased mselLow s = .next t → Swaps s t := by
  cases hr : s.resetAsserted with
  | false =>
    rw [execResetNReleased_of_released mselLow hr]
    exact swaps_next (swaps_refl s)
  | true =>
    rw [execResetNReleased_of_reset mselLow hr]
    refine swaps_next ?_
    obtain ⟨hsh, hac⟩ := swaps_of_frameStarted (frameStart_spec { released mselLow s with resetAsserted := false })
    unfold Swaps
    rw [startResets_shadow, startResets_active, startResets_sched, startResets_frameMarks]
    exact ⟨hsh, hac⟩

theorem swaps_syncInPulse (s : State) : ∀ t, execSyncInPulse s = .next t → Swaps s t := by
  unfold execSyncInPulse
  split
  · exact swaps_next (swaps_refl s)
  · split
    · exact swaps_next (swaps_of_frameStarted (frameStart_spec s))
    · exact swaps_next (swaps_of_kept rfl rfl)
    · exact swaps_next (swaps_of_kept rfl rfl)
    · exact swaps_next (swaps_refl s)

theorem swaps_syncWaitTimerExpiry (s : State) : ∀ t, execSyncWaitTimerExpiry s = .next t → Swaps s t := by
  rcases execSyncWaitTimerExpiry_cases s with ⟨_, he⟩ | ⟨_, _, he⟩ | ⟨_, _, he⟩
  · have h := swaps_of_frameStarted (frameStart_spec (missedPulse s))
    rw [he]
    exact swaps_next h
  · have h := swaps_gapMarkFirst (missedPulse s)
    rw [he]
    exact swaps_next h
  · rw [he]
    exact swaps_next (swaps_refl s)

theorem swaps_slotEnd (s : State) : ∀ t, execSlotEnd s = .next t → Swaps s t := by
  rcases execSlotEnd_cases s with ⟨_, he⟩ | ⟨_, _, he⟩ | ⟨_, _, he⟩
  · rw [he]
    exact swaps_next (swaps_endSlot s)
  · rw [he]
    exact swaps_next (swaps_markFirst s)
  · rw [he]
    exact swaps_next (swaps_refl s)

theorem swaps_ite {s u v : State} {c : Prop} [Decidable c] (hu : Swaps s u) (hv : Swaps s v) :
    Swaps s (if c then u else v) := by
  split
  · exact hu
  · exact hv

theorem swaps_startScheduler (s : State) : Swaps s (startScheduler s) := by
  unfold startScheduler
  split
  · exact swaps_of_frameStarted (frameStart_spec s)
  · exact swaps_of_kept rfl rfl
  · exact swaps_refl s

theorem swaps_stopScheduler (s : State) : Swaps s (stopScheduler s) := by
  unfold stopScheduler
  split
  · exact swaps_of_kept rfl rfl
  · exact swaps_of_stopped (enterStopped_spec s)
  · exact swaps_refl s

theorem swaps_presentRequest (p : Port) (r : Request) (s : State) : Swaps s (presentRequest p r s) :=
  swaps_of_kept (presentRequest_active ..) (presentRequest_shadow ..)

theorem swaps_purgeBody (b : Byte) (u : State) : Swaps u (purgeBody b u).state := by
  unfold purgeBody
  split
  · exact swaps_of_kept rfl rfl
  · split
    · exact swaps_of_kept rfl rfl
    · exact swaps_refl u

theorem swaps_takeNoticeBody (u : State) : Swaps u (takeNoticeBody u).state := by
  unfold takeNoticeBody
  split
  · exact swaps_refl u
  · exact swaps_of_kept rfl rfl

theorem swaps_recoverBody (u : State) : Swaps u (recoverBody u).state := by
  unfold recoverBody
  split
  · exact swaps_refl u
  · split
    · exact swaps_of_kept rfl rfl
    · exact swaps_refl u

theorem swaps_recoverForceBody (u : State) : Swaps u (recoverForceBody u).state := by
  unfold recoverForceBody
  split
  · exact swaps_refl u
  · exact swaps_of_kept rfl rfl

/-- Every other row leaves the tables, or swaps them (R53). -/
theorem swaps_exec {i : Instr} (h : writesTables i = false) (s : State) : ∀ t, exec i s = .next t → Swaps s t := by
  cases i with
  | resetNAsserted | commitTable _ | writeSlot _ _ _ _ _ _ | setFrameLen _ _ | copyActive _ => cases h
  | resetNReleased mselLow => exact swaps_resetNReleased mselLow s
  | prstNAsserted p => exact swaps_next (swaps_ite (swaps_of_kept rfl rfl) (swaps_of_kept (startReset_active ..) (startReset_shadow ..)))
  | prstNReleased p => exact swaps_next (swaps_of_kept rfl rfl)
  | syncInPulse => exact swaps_syncInPulse s
  | syncWaitTimerExpiry => exact swaps_syncWaitTimerExpiry s
  | maintReqAsserted => exact swaps_next (swaps_of_kept (grantMaint_active _) (grantMaint_shadow _))
  | maintReqWithdrawn => exact swaps_next (swaps_of_kept rfl rfl)
  | maintGrant => exact swaps_next (swaps_of_kept (grantMaint_active s) (grantMaint_shadow s))
  | slotEnd => exact swaps_slotEnd s
  | issueDecision | atomicWriteBeat =>
    exact swaps_next (swaps_ite (swaps_of_kept (beatTime_active s) (beatTime_shadow s)) (swaps_refl s))
  | memoryResponse status element => exact swaps_next (swaps_of_kept (takeResponse_active ..) (takeResponse_shadow ..))
  | wedge => exact swaps_next (swaps_ite (swaps_of_kept (takeWedge_active s) (takeWedge_shadow s)) (swaps_refl s))
  | responseDelivery p => exact swaps_next (swaps_of_kept (deliver_active ..) (deliver_shadow ..))
  | linkDropTakesEffect p =>
    exact swaps_next (swaps_ite (swaps_refl s) (swaps_of_kept (takeDrops_active ..) (takeDrops_shadow ..)))
  | portResetEnd p => exact swaps_next (swaps_of_kept (endReset_active ..) (endReset_shadow ..))
  | withheldRequestTaken p => exact swaps_next (swaps_of_kept (takeWithheld_active ..) (takeWithheld_shadow ..))
  | read p size beats addr | write p size addr data | linkedRead p size addr | conditionalWrite p size addr data
  | swap p size addr value | boundedAdd p size addr delta ceiling | linkDrop p => exact swaps_next (swaps_presentRequest ..)
  | emptyFrame | fillFrame n => exact swaps_next (swaps_endFrame swaps_refl _ s)
  | badFrame bits =>
    change ∀ t, execBadFrame bits s = .next t → Swaps s t
    unfold execBadFrame
    split
    · refine swaps_next (swaps_endFrame (fun u => ?_) bits s)
      exact swaps_of_kept rfl rfl
    · intro t ht
      cases ht
  | badCommand bits =>
    change ∀ t, execBadCommand bits s = .next t → Swaps s t
    unfold execBadCommand
    split
    · refine swaps_next (swaps_endFrame (fun u => ?_) bits s)
      exact swaps_of_kept rfl rfl
    · intro t ht
      cases ht
  | readSetting number fill => exact swaps_next (swaps_command (fun u => by split <;> exact swaps_refl u) _ _ _ s)
  | writeSyncMode v fill => exact swaps_next (swaps_command (swaps_writeSettingBody 0 v) _ _ _ s)
  | writeSyncWait v fill => exact swaps_next (swaps_command (swaps_writeSettingBody 1 v) _ _ _ s)
  | writeLinkLimit v fill => exact swaps_next (swaps_command (swaps_writeSettingBody 2 v) _ _ _ s)
  | writeLinkAgeLimit v fill => exact swaps_next (swaps_command (swaps_writeSettingBody 3 v) _ _ _ s)
  | writeGranule v fill => exact swaps_next (swaps_command (swaps_writeSettingBody 4 v) _ _ _ s)
  | writeMemSize v fill => exact swaps_next (swaps_command (swaps_writeSettingBody 5 v) _ _ _ s)
  | writeMemTimeout v fill => exact swaps_next (swaps_command (swaps_writeSettingBody 6 v) _ _ _ s)
  | writeWaitLimit v fill => exact swaps_next (swaps_command (swaps_writeSettingBody 7 v) _ _ _ s)
  | writeSplitOk v fill => exact swaps_next (swaps_command (swaps_writeSettingBody 8 v) _ _ _ s)
  | writeNoticeMask v fill => exact swaps_next (swaps_command (swaps_writeSettingBody 9 v) _ _ _ s)
  | writeSetting n v fill => exact swaps_next (swaps_command (swaps_writeSettingBody n.toNat v) _ _ _ s)
  | readSlot table index fill =>
    by_cases hv : 1 < table.toNat ∨ 31 < index.toNat
    · rw [exec_readSlot_of_invalid hv]
      exact swaps_next (swaps_command (fun u => swaps_refl u) _ _ _ s)
    · have hi : index.toNat < 32 := by omega
      rw [exec_readSlot_of_valid (j := ⟨index.toNat, hi⟩) (by omega) rfl]
      exact swaps_next (swaps_command (fun u => swaps_refl u) _ _ _ s)
  | cancelCommit fill | peekNotice fill | clearState fill | readGate fill =>
    exact swaps_next (swaps_command (fun u => swaps_of_kept rfl rfl) _ _ _ s)
  | start fill => exact swaps_next (swaps_command swaps_startScheduler _ _ _ s)
  | stop fill => exact swaps_next (swaps_command swaps_stopScheduler _ _ _ s)
  | portEnable b fill =>
    exact swaps_next (swaps_command (fun u => swaps_onPort fun p => swaps_of_kept rfl rfl) _ _ _ s)
  | portDisable b fill =>
    exact swaps_next (swaps_command (fun u => swaps_onPort fun p => by rw [disablePort_eq]; exact swaps_of_kept rfl rfl) _ _ _ s)
  | portReset b fill =>
    exact swaps_next (swaps_command (fun u => swaps_onPort fun p =>
      swaps_of_kept (startReset_active p u) (startReset_shadow p u)) _ _ _ s)
  | readPort b fill => exact swaps_next (swaps_command (fun u => swaps_onPort fun p => swaps_refl u) _ _ _ s)
  | readLink k fill => exact swaps_next (swaps_command (fun u => by split <;> exact swaps_refl u) _ _ _ s)
  | purgeLinks b fill => exact swaps_next (swaps_command (swaps_purgeBody b) _ _ _ s)
  | takeNotice fill => exact swaps_next (swaps_command swaps_takeNoticeBody _ _ _ s)
  | recover fill => exact swaps_next (swaps_command swaps_recoverBody _ _ _ s)
  | recoverForce fill => exact swaps_next (swaps_command swaps_recoverForceBody _ _ _ s)

/-! ### The rows that write the tables -/

theorem shadowEdit_active {edit : State → MgmtReply} {u : State} (he : (edit u).state.active = u.active) :
    (shadowEdit edit u).state.active = u.active := by
  unfold shadowEdit
  split
  · rfl
  · exact he

/-- A shadow edit leaves the active table, and the shadow too while a commit is pending (R8). -/
theorem shadowEdit_tables {edit : State → MgmtReply} (he : ∀ u, (edit u).state.active = u.active) (code : Byte)
    (args : List Byte) (fill : Nat) (s : State) :
    (command code args fill (shadowEdit edit) s).active = s.active ∧
      ((command code args fill (shadowEdit edit) s).shadow = s.shadow ∨ (s.sched.commit = .none ∧ Listening s)) := by
  unfold command
  rcases endFrame_cases (bitsOfBytes (code :: args ++ List.replicate fill 0))
    (fun u => respond code (shadowEdit edit u)) s with h | h | ⟨hl, h⟩
  · rw [h]
    exact ⟨rfl, .inl rfl⟩
  · rw [h]
    exact ⟨rfl, .inl rfl⟩
  · rw [h]
    refine ⟨shadowEdit_active (he _), ?_⟩
    cases hc : s.sched.commit with
    | none => exact .inr ⟨rfl, hl⟩
    | pending =>
      left
      rw [shadowEdit_of_pending (s := clocked _ s) hc]
      rfl

theorem writeSlotEdit_active (index kind owner length donate : Byte) (u : State) :
    (writeSlotEdit index kind owner length donate u).state.active = u.active := by
  unfold writeSlotEdit
  split <;> rfl

theorem setFrameLenEdit_active (length : Byte) (u : State) : (setFrameLenEdit length u).state.active = u.active := by
  unfold setFrameLenEdit
  split <;> rfl

/-- COMMIT_TABLE leaves the tables, or swaps in STOPPED with no commit pending (R53, R54). -/
theorem commitTable_tables (fill : Nat) (s : State) :
    let t := command 0x13 [] fill commitBody s
    t.shadow = s.shadow ∧
      (t.active = s.active ∨ (t.active = s.shadow ∧ t.sched.commit = .none ∧ s.sched.state = .stopped)) := by
  unfold command
  rcases endFrame_cases (bitsOfBytes (0x13 :: [] ++ List.replicate fill 0)) (fun u => respond 0x13 (commitBody u)) s with
    h | h | ⟨_, h⟩
  · rw [h]
    exact ⟨rfl, .inl rfl⟩
  · rw [h]
    exact ⟨rfl, .inl rfl⟩
  · rw [h]
    by_cases hd : s.sched.commit = .pending ∨ s.sched.state ≠ .stopped
    · rw [commitBody_of_deferred (s := clocked _ s) hd]
      exact ⟨rfl, .inl rfl⟩
    · obtain ⟨hc, hs⟩ := not_or.1 hd
      have hc' : s.sched.commit = .none := by
        cases h : s.sched.commit with
        | none => rfl
        | pending => exact absurd h hc
      rw [commitBody_of_stopped (s := clocked _ s) hc' (not_not.1 hs)]
      exact ⟨rfl, .inr ⟨rfl, hc', not_not.1 hs⟩⟩

/-- Settles O11: the rows that write the tables one by one, and every other row leaves or swaps them. -/
theorem tablesChangeOnlyAsTheirRulesSay : Obligations.TablesChangeOnlyAsTheirRulesSay := by
  intro i s t hx
  cases hw : writesTables i with
  | false =>
    obtain ⟨hs, ha⟩ := swaps_exec hw s t hx
    refine ⟨?_, .inl hs⟩
    rcases ha with ha | ⟨ha, hc, hp, hm⟩
    · exact .inl ha
    · exact .inr (.inr ⟨ha, hs, hc, .inl ⟨hp, hm⟩⟩)
  | true =>
    cases i with
    | resetNAsserted =>
      obtain rfl := Host.Outcome.next.inj hx
      exact ⟨.inr (.inl ⟨rfl, rfl⟩), .inr (.inl ⟨rfl, rfl⟩)⟩
    | commitTable fill =>
      obtain rfl := Host.Outcome.next.inj hx
      obtain ⟨hs, ha⟩ := commitTable_tables fill s
      refine ⟨?_, .inl hs⟩
      rcases ha with ha | ⟨ha, hc, hst⟩
      · exact .inl ha
      · exact .inr (.inr ⟨ha, hs, hc, .inr ⟨hst, fill, rfl⟩⟩)
    | writeSlot index kind owner length donate fill =>
      obtain rfl := Host.Outcome.next.inj ((exec_writeSlot ..).symm.trans hx)
      obtain ⟨ha, hs⟩ := shadowEdit_tables (writeSlotEdit_active index kind owner length donate) 0x10
        [index, kind, owner, length, donate] fill s
      refine ⟨.inl ha, hs.imp_right fun ⟨hc, hl⟩ => .inr ⟨hc, hl, .inl ⟨_, _, _, _, _, _, rfl⟩⟩⟩
    | setFrameLen length fill =>
      obtain rfl := Host.Outcome.next.inj ((exec_setFrameLen ..).symm.trans hx)
      obtain ⟨ha, hs⟩ := shadowEdit_tables (setFrameLenEdit_active length) 0x12 [length] fill s
      refine ⟨.inl ha, hs.imp_right fun ⟨hc, hl⟩ => .inr ⟨hc, hl, .inr (.inl ⟨_, _, rfl⟩)⟩⟩
    | copyActive fill =>
      obtain rfl := Host.Outcome.next.inj ((exec_copyActive ..).symm.trans hx)
      obtain ⟨ha, hs⟩ := shadowEdit_tables (edit := fun u => shadowReply (u.setTables u.active u.active)) (fun _ => rfl) 0x15
        [] fill s
      refine ⟨.inl ha, hs.imp_right fun ⟨hc, hl⟩ => .inr ⟨hc, hl, .inr (.inr ⟨_, rfl⟩)⟩⟩
    | _ => cases hw

end Sys2Proof.Proofs
end

section
/-! PROOF. Responses and their fields, and the read data sent ahead of them: what a port has sent of the response of its
oldest entry, no step takes back (R116, R117, R123). -/

namespace Sys2Proof.Proofs

open Sys2Proof Sys2Proof.Machine Sys2Proof.Safety

/-! ### Entries and queues that grow -/

/-- The entry f is what became of d: the same request, still unmarked only if d was, with at least the data of d. -/
structure Kept (d f : Entry) : Prop where
  id : f.id = d.id
  kind : f.req.kind = d.req.kind
  marked : f.marked = false → d.marked = false
  data : ∃ more, f.data = d.data ++ more

theorem Kept.of_data {d f : Entry} (hid : f.id = d.id) (hk : f.req.kind = d.req.kind) (hm : f.marked = d.marked)
    (hd : f.data = d.data) : Kept d f :=
  ⟨hid, hk, fun h => hm.symm.trans h, [], by rw [hd, List.append_nil]⟩

theorem Kept.refl (e : Entry) : Kept e e := .of_data rfl rfl rfl rfl

theorem Kept.trans {c d f : Entry} (h : Kept c d) (h' : Kept d f) : Kept c f := by
  obtain ⟨more, hmore⟩ := h.data
  obtain ⟨more', hmore'⟩ := h'.data
  exact ⟨h'.id.trans h.id, h'.kind.trans h.kind, fun hm => h.marked (h'.marked hm), more ++ more', by
    rw [hmore', hmore, List.append_assoc]⟩

/-- Every entry of the queue q' is what became of one of q. -/
def Descends (q q' : List Entry) : Prop := ∀ f ∈ q', ∃ d ∈ q, Kept d f

theorem Descends.of_subset {q q' : List Entry} (h : q' ⊆ q) : Descends q q' := fun f hf => ⟨f, h hf, .refl f⟩

theorem Descends.refl (q : List Entry) : Descends q q := .of_subset (List.Subset.refl q)

theorem Descends.trans {q q' q'' : List Entry} (h : Descends q q') (h' : Descends q' q'') : Descends q q'' := by
  intro f hf
  obtain ⟨d, hd, hdf⟩ := h' f hf
  obtain ⟨c, hc, hcd⟩ := h d hd
  exact ⟨c, hc, hcd.trans hdf⟩

theorem descends_settleDrops (q : List Entry) : Descends q (settleDrops q) := by
  intro f hf
  rcases mem_settleDrops hf with hf | ⟨d, hd, _, _, rfl⟩
  · exact ⟨f, hf, .refl f⟩
  · exact ⟨d, hd, .of_data rfl rfl rfl rfl⟩

theorem descends_changed (id : Nat) {g : Entry → Entry} (hg : ∀ e, Kept e (g e)) (q : List Entry) :
    Descends q (changed id g q) := by
  intro f hf
  obtain ⟨d, hd, ⟨rfl, _⟩ | ⟨rfl, _⟩⟩ := mem_changed hf
  · exact ⟨d, hd, hg d⟩
  · exact ⟨_, hd, .refl _⟩

theorem descends_filterMap {g : Entry → Option Entry} (hg : ∀ e e', g e = some e' → Kept e e') (q : List Entry) :
    Descends q (q.filterMap g) := by
  intro f hf
  obtain ⟨d, hd, hdf⟩ := List.mem_filterMap.1 hf
  exact ⟨d, hd, hg d f hdf⟩

/-! ### States whose queues grow -/

/-- Every entry of t that was in s by its identity is what became of an entry of the same port. -/
def QueuesGrow (s t : State) : Prop :=
  s.nextId ≤ t.nextId ∧ ∀ p : Port, ∀ f ∈ queues t p, f.id < s.nextId → ∃ d ∈ queues s p, Kept d f

theorem QueuesGrow.refl (s : State) : QueuesGrow s s := ⟨Nat.le_refl _, fun _ f hf _ => ⟨f, hf, .refl f⟩⟩

theorem QueuesGrow.trans {s t u : State} (h : QueuesGrow s t) (h' : QueuesGrow t u) : QueuesGrow s u := by
  obtain ⟨hn, hq⟩ := h
  obtain ⟨hn', hq'⟩ := h'
  refine ⟨hn.trans hn', fun p f hf hlt => ?_⟩
  obtain ⟨d, hd, hdf⟩ := hq' p f hf (hlt.trans_le hn)
  obtain ⟨c, hc, hcd⟩ := hq p d hd (hdf.id ▸ hlt)
  exact ⟨c, hc, hcd.trans hdf⟩

section
variable {s t : State}

theorem queuesGrow_of_descends (hn : s.nextId ≤ t.nextId) (hq : ∀ p : Port, Descends (queues s p) (queues t p)) :
    QueuesGrow s t := ⟨hn, fun p f hf _ => hq p f hf⟩

theorem queuesGrow_of_ports (hn : t.nextId = s.nextId) (hp : t.ports = s.ports) : QueuesGrow s t := by
  refine queuesGrow_of_descends hn.ge fun p => ?_
  unfold queues State.port
  rw [hp]
  exact .refl _

/-- One port's queue changes. -/
theorem queuesGrow_of_queue {p : Port} (hn : s.nextId ≤ t.nextId) (hp : Descends (queues s p) (queues t p))
    (hne : ∀ r : Port, r ≠ p → queues t r = queues s r) : QueuesGrow s t := by
  refine queuesGrow_of_descends hn fun r => ?_
  by_cases hr : r = p
  · rw [hr]
    exact hp
  · rw [hne r hr]
    exact .refl _

theorem queuesGrow_setPort {p : Port} {x : PortRec} (h : Descends (queues s p) x.queue) :
    QueuesGrow s (s.setPort p x) := by
  refine queuesGrow_of_queue (p := p) (Nat.le_refl _) ?_ fun r hr => ?_
  · unfold queues
    rw [port_setPort_self]
    exact h
  · unfold queues
    rw [port_setPort_ne _ _ hr]

theorem queuesGrow_closeWhere (f : Link → Bool) (c : LossCause) (s : State) : QueuesGrow s (closeWhere f c s) := by
  refine queuesGrow_of_descends (Nat.le_refl _) fun p => ?_
  unfold queues
  rw [onlyLoss_closeWhere f c s p]
  exact .refl _

theorem queuesGrow_purgePort (p : Port) (s : State) : QueuesGrow s (purgePort p s) := queuesGrow_closeWhere _ _ s

end

/-! ### A beat time -/

section
variable {p : Port} {entry index : Nat} {kind : BeatKind} {a : Word} {bytes : Nat} {value : Option Elem} {g : Entry → Entry}

theorem queuesGrow_placeBeat (hg : ∀ e, Kept e (g e)) (v : State) :
    QueuesGrow v (placeBeat p entry index kind a bytes value g v) := by
  have hn : (placeBeat p entry index kind a bytes value g v).nextId = v.nextId + 1 := by
    rw [placeBeat_frame p entry index kind a bytes value g v]
  refine queuesGrow_of_queue (p := p) (hn ▸ Nat.le_succ _) ?_ fun r hr => placeBeat_queue_ne hr
  rw [placeBeat_queue_self]
  exact (descends_changed entry hg _).trans (descends_settleDrops _)

end

theorem queuesGrow_linkConsumed (p : Port) (e : Entry) (s : State) : QueuesGrow s (linkConsumed p e s) := by
  refine queuesGrow_of_queue (p := p) (Nat.le_refl _) ?_ fun r hr => ?_
  · unfold queues
    rw [linkConsumed_port_self]
    exact .refl _
  · unfold queues
    rw [linkConsumed_port_ne hr]

theorem queuesGrow_places {u t : State} {p : Port} (h : Places u t p) : QueuesGrow u t := by
  cases h with
  | burst _ e _ _ =>
    rw [placeBurst_eq]
    exact queuesGrow_placeBeat (g := afterBurstBeat) (fun _ => .of_data rfl rfl rfl rfl) u
  | linkedRead _ e _ _ =>
    rw [placeLinkedRead_eq]
    exact queuesGrow_placeBeat (g := afterOnlyBeat) (fun _ => .of_data rfl rfl rfl rfl) u
  | success _ e _ _ =>
    rw [judgeSuccess_eq]
    exact (queuesGrow_linkConsumed p e u).trans
      (queuesGrow_placeBeat (g := afterOnlyBeat) (fun _ => .of_data rfl rfl rfl rfl) _)
  | atomicRead _ e hc _ =>
    rw [placeAtomicRead_eq hc.head]
    exact (queuesGrow_placeBeat (g := afterAtomicRead) (fun _ => .of_data rfl rfl rfl rfl) u).trans
      (queuesGrow_of_ports rfl rfl)
  | owed r old new clamped _ _ _ _ =>
    unfold placeAtomicWrite
    have htaken : QueuesGrow u (owedTaken r u) := queuesGrow_of_ports rfl rfl
    exact htaken.trans
      (queuesGrow_placeBeat (g := afterAtomicWrite old clamped) (fun _ => .of_data rfl rfl rfl rfl) _)

theorem queuesGrow_fails {u v : State} (h : Fails u v) : QueuesGrow u v := by
  cases h with
  | failed p e w _ _ =>
    refine queuesGrow_of_queue (p := p) (Nat.le_refl _) ?_ fun r hr => ?_
    · unfold queues
      rw [afterFailure_port_self]
      exact (descends_changed e.id (g := fun x => { x with state := .ready w }) (fun _ => .of_data rfl rfl rfl rfl) _).trans
        (descends_settleDrops _)
    · unfold queues afterFailure
      dsimp only
      rw [setLinks_port, port_setPort_ne _ _ hr]

theorem queuesGrow_endBeat (o : Option Port) (v : State) : QueuesGrow v (endBeat o v) := by
  refine queuesGrow_of_descends (endBeat_nextId o v).ge fun p => ?_
  unfold queues
  rw [endBeat_port]
  exact .refl _

theorem queuesGrow_beatTime (s : State) : QueuesGrow s (beatTime s) :=
  beatTime_keeps (P := QueuesGrow s) (fun _ _ h hu => hu.trans (queuesGrow_fails h))
    (fun _ _ _ h hu => hu.trans (queuesGrow_places h)) (fun o v hv => hv.trans (queuesGrow_endBeat o v))
    (queuesGrow_of_ports rfl rfl)

/-! ### Frames -/

theorem queuesGrow_atMark {s t : State} (hn : t.nextId = s.nextId) (hp : ∀ p : Port, t.port p = portAtMark s p) :
    QueuesGrow s t := by
  refine queuesGrow_of_descends hn.ge fun p => ?_
  unfold queues
  rw [hp p]
  exact .refl _

theorem queuesGrow_of_frameStarted {s t : State} (h : FrameStarted s t) : QueuesGrow s t := by
  dsimp only [FrameStarted] at h
  obtain ⟨_, _, _, hp, _, _, ht⟩ := h
  exact queuesGrow_atMark (by rw [ht]) hp

theorem queuesGrow_frameStart (s : State) : QueuesGrow s (frameStart s) := queuesGrow_of_frameStarted (frameStart_spec s)

theorem queuesGrow_of_markTaken {s u : State} (h : MarkTaken s u) : QueuesGrow s u := by
  dsimp only [MarkTaken] at h
  obtain ⟨hp, _, _, hu⟩ := h
  exact queuesGrow_atMark (by rw [hu]) hp

theorem queuesGrow_of_slotStarted {v t : State} {i : Fin 32} (h : SlotStarted v t i) : QueuesGrow v t := by
  dsimp only [SlotStarted] at h
  obtain ⟨_, _, ht⟩ := h
  exact queuesGrow_of_ports (by rw [ht]) (by rw [ht])

theorem queuesGrow_slotClosed (s : State) : QueuesGrow s (slotClosed s) := queuesGrow_of_ports rfl rfl

theorem queuesGrow_setSched (s : State) (x : Scheduler) : QueuesGrow s (s.setSched x) := queuesGrow_of_ports rfl rfl

theorem queuesGrow_endSlot (s : State) : QueuesGrow s (endSlot s) := by
  refine (queuesGrow_slotClosed s).trans ?_
  rcases endSlot_cases s with ⟨_, he⟩ | ⟨_, _, he⟩ | ⟨_, _, _, he⟩ | ⟨_, _, _, he⟩
  · exact queuesGrow_of_ports (by rw [he]) (by rw [he])
  · exact queuesGrow_of_slotStarted he
  · exact (queuesGrow_setSched _ _).trans (queuesGrow_of_frameStarted he)
  · exact queuesGrow_of_ports (by rw [he]) (by rw [he])

theorem queuesGrow_markFirst (s : State) : QueuesGrow s (markFirst s) := by
  obtain ⟨u, hu, ht⟩ := markFirst_spec s
  exact (queuesGrow_of_markTaken hu).trans ((queuesGrow_beatTime u).trans
    ((queuesGrow_slotClosed _).trans ((queuesGrow_setSched _ _).trans (queuesGrow_of_slotStarted ht))))

theorem queuesGrow_gapMarkFirst (s : State) : QueuesGrow s (gapMarkFirst s) := by
  obtain ⟨u, hu, ht⟩ := gapMarkFirst_spec s
  exact (queuesGrow_of_markTaken hu).trans ((queuesGrow_beatTime u).trans
    ((queuesGrow_setSched _ _).trans (queuesGrow_of_slotStarted ht)))

/-! ### Requests, deliveries and port resets -/

theorem queuesGrow_takeDrops (p : Port) (s : State) : QueuesGrow s (takeDrops p s) := by
  refine queuesGrow_of_queue (p := p) ?_ ?_ fun r hr => ?_
  · rw [takeDrops_frame]
  · unfold queues
    rw [takeDrops_port, if_pos rfl]
    exact descends_settleDrops _
  · unfold queues
    rw [takeDrops_port, if_neg hr]

/-- A request that is appended is none of the entries before it: its identity is new. -/
theorem queuesGrow_of_append {s t : State} {p : Port} {e : Entry} (hid : e.id = s.nextId) (hn : t.nextId = s.nextId + 1)
    (hp : Descends (queues s p ++ [e]) (queues t p)) (hne : ∀ r : Port, r ≠ p → queues t r = queues s r) :
    QueuesGrow s t := by
  refine ⟨by omega, fun r f hf hlt => ?_⟩
  by_cases hr : r = p
  · subst hr
    obtain ⟨d, hd, hdf⟩ := hp f hf
    rcases List.mem_append.1 hd with hd | hd
    · exact ⟨d, hd, hdf⟩
    · rw [hdf.id, List.mem_singleton.1 hd, hid] at hlt
      exact absurd hlt (Nat.lt_irrefl _)
  · rw [hne r hr] at hf
    exact ⟨f, hf, .refl f⟩

theorem queuesGrow_takeRequest (p : Port) (r : Request) (s : State) : QueuesGrow s (takeRequest p r s) := by
  have htaken := takeRequest_spec p r s
  dsimp only [Taken] at htaken
  obtain ⟨hother, hself⟩ := htaken
  have hne : ∀ q : Port, q ≠ p → queues (takeRequest p r s) q = queues s q := fun q hq => by
    unfold queues
    rw [hother q hq]
  split at hself
  · obtain ⟨hp, ht⟩ := hself
    have hq : queues (takeRequest p r s) p = settleDrops (queues s p ++ [newEntry s.nextId r .waiting]) := by
      unfold queues
      rw [hp]
      rfl
    exact queuesGrow_of_append (e := newEntry s.nextId r .waiting) rfl (by rw [ht])
      (hq ▸ descends_settleDrops _) hne
  · next why _ =>
    split at hself
    · obtain ⟨hp, ht⟩ := hself
      refine queuesGrow_of_queue (p := p) (by rw [ht]) ?_ hne
      unfold queues
      rw [hp]
      exact .refl _
    · obtain ⟨hp, ht⟩ := hself
      have hq : queues (takeRequest p r s) p =
          queues s p ++ [newEntry s.nextId { r with data := [] } (.refusal why)] := by
        unfold queues
        rw [hp]
        rfl
      exact queuesGrow_of_append (e := newEntry s.nextId { r with data := [] } (.refusal why)) rfl (by rw [ht])
        (hq ▸ .refl _) hne

theorem queuesGrow_deliver (p : Port) (s : State) : QueuesGrow s (deliver p s) := by
  rcases deliver_cases p s with ⟨_, h⟩ | ⟨e, rest, r, _, _, hq, _, h⟩
  · rw [h]
    exact .refl s
  · rw [h]
    split
    · exact (queuesGrow_setPort (.of_subset (List.nil_subset _))).trans (queuesGrow_purgePort p _)
    · refine queuesGrow_setPort (.of_subset ?_)
      unfold queues
      rw [hq]
      exact List.subset_cons_self ..

theorem queuesGrow_startReset (p : Port) (s : State) : QueuesGrow s (startReset p s) := by
  by_cases hst : (s.port p).state = .resetting
  · rw [startReset_resetting p s hst]
    exact .refl s
  · have h := startReset_spec p s hst
    dsimp only [ResetStarted] at h
    obtain ⟨hp, hother, ht⟩ := h
    refine queuesGrow_of_queue (p := p) (by rw [ht]) ?_ fun r hr => ?_
    · unfold queues
      rw [hp]
      intro f hf
      obtain ⟨d, hd, rfl⟩ := List.mem_map.1 hf
      exact ⟨d, List.filter_sublist.subset hd, rfl, rfl, nofun, [], (List.append_nil _).symm⟩
    · unfold queues
      rw [hother r hr]

theorem queuesGrow_endReset (p : Port) (s : State) : QueuesGrow s (endReset p s) := by
  rcases endReset_cases p s with ⟨_, _, h⟩ | ⟨_, h⟩
  · rw [h]
    exact (queuesGrow_setPort (.of_subset (List.nil_subset _))).trans (queuesGrow_of_ports rfl rfl)
  · rw [h]
    exact .refl s

/-! ### Responses and the wedge -/

theorem queuesGrow_of_windowAfter {u t : State} (h : WindowAfter u t) : QueuesGrow u t := by
  dsimp only [WindowAfter] at h
  exact queuesGrow_of_ports (by rw [h]) (by rw [h])

theorem queuesGrow_matched (s : State) (b : BeatRecord) (rest : List BeatRecord) (bad : Bool) (element : Elem) :
    QueuesGrow s (matched s b rest bad element) := by
  refine (queuesGrow_of_ports rfl rfl).trans (queuesGrow_setPort (descends_filterMap (fun e e' h => ?_) _))
  have hdata : ∀ (c : Bool) (x : Elem), ∃ more, (if c then e.data ++ [x] else e.data) = e.data ++ more := by
    intro c x
    cases c with
    | true => exact ⟨[x], rfl⟩
    | false => exact ⟨[], (List.append_nil _).symm⟩
  split at h
  · cases h
    exact .refl e
  · split at h
    · cases h
      exact ⟨rfl, rfl, id, hdata _ _⟩
    · split at h
      · cases h
      · split at h <;> cases h <;> exact ⟨rfl, rfl, id, hdata _ _⟩

theorem queuesGrow_readAnswered (s : State) (rest : List BeatRecord) (a : AtomicRecord) (old new : Word)
    (clamped : Option Bool) : QueuesGrow s (readAnswered s rest a old new clamped) :=
  (queuesGrow_of_ports rfl rfl).trans (queuesGrow_setPort (.refl _))

theorem queuesGrow_readFailed (s : State) (b : BeatRecord) (rest : List BeatRecord) :
    QueuesGrow s (readFailed s b rest) := by
  refine (queuesGrow_of_ports rfl rfl).trans (queuesGrow_setPort ((descends_filterMap (fun e e' h => ?_) _).trans
    (descends_settleDrops _)))
  split at h
  · cases h
    exact .refl e
  · split at h
    · cases h
    · cases h
      exact .of_data rfl rfl rfl rfl

theorem queuesGrow_takeResponse (status : MemStatus) (element : Elem) (s : State) :
    QueuesGrow s (takeResponse status element s) := by
  have ht := takeResponse_taken status element s
  generalize takeResponse status element s = t at ht ⊢
  cases ht with
  | discarded => exact .refl s
  | owed _ | stray _ _ => exact queuesGrow_of_ports rfl rfl
  | matched b rest bad element _ _ =>
    exact (queuesGrow_matched s b rest bad element).trans (queuesGrow_of_windowAfter (grantMaint_spec _))
  | answered b rest a old new clamped _ _ _ => exact queuesGrow_readAnswered s rest a old new clamped
  | unclaimed b rest _ _ _ =>
    have hgone : QueuesGrow s (withoutBeat s rest) := queuesGrow_of_ports rfl rfl
    exact hgone.trans (queuesGrow_of_windowAfter (grantMaint_spec _))
  | failed b rest _ _ => exact (queuesGrow_readFailed s b rest).trans (queuesGrow_of_windowAfter (grantMaint_spec _))

/-- A wedge fills the data of the entries it fails with zeros (R123, R141). -/
theorem wedgedEntry_cases {e f : Entry} (h : wedgedEntry e = some f) :
    ∃ n, f.id = e.id ∧ f.req = e.req ∧ f.marked = e.marked ∧ f.data = e.data ++ List.replicate n 0 := by
  unfold wedgedEntry at h
  split at h
  · split at h
    · cases h
    · cases h
      dsimp only
      split
      · exact ⟨_, rfl, rfl, rfl, rfl⟩
      · exact ⟨0, rfl, rfl, rfl, (List.append_nil _).symm⟩
  · cases h
    exact ⟨0, rfl, rfl, rfl, (List.append_nil _).symm⟩

theorem queuesGrow_takeWedge (s : State) : QueuesGrow s (takeWedge s) := by
  refine queuesGrow_of_descends (takeWedge_nextId s).ge fun p => ?_
  have hq : queues (takeWedge s) p = settleDrops ((queues s p).filterMap wedgedEntry) := by
    unfold queues
    rw [(takeWedge_spec s).1 p]
    rfl
  rw [hq]
  refine (descends_filterMap (fun e f h => ?_) _).trans (descends_settleDrops _)
  obtain ⟨n, hid, hreq, hm, hd⟩ := wedgedEntry_cases h
  exact ⟨hid, by rw [hreq], fun hf => hm.symm.trans hf, _, hd⟩

/-! ### Every happening -/

theorem queuesGrow_disablePort (p : Port) (s : State) : QueuesGrow s (disablePort p s) := by
  rcases disablePort_cases p s with ⟨_, _, h⟩ | ⟨_, _, h⟩ | ⟨_, h⟩ <;> rw [h]
  · refine .trans ?_ (queuesGrow_purgePort p _)
    exact queuesGrow_setPort (.refl _)
  · exact queuesGrow_setPort (.refl _)
  · exact queuesGrow_setPort (.refl _)

theorem queuesGrow_settingWritten (number : Nat) (value : Half) (s : State) :
    QueuesGrow s (settingWritten number value s) := by
  have hstored : QueuesGrow s (settingStored number value s) := queuesGrow_of_ports rfl rfl
  refine hstored.trans ?_
  rcases settingWritten_cases number value s with ⟨_, _, _, h⟩ | ⟨_, _, h⟩ | ⟨_, _, h⟩ | ⟨_, _, h⟩ | ⟨_, h⟩ |
    ⟨_, _, _, _, h⟩ <;> rw [h]
  · exact (queuesGrow_setSched _ _).trans (queuesGrow_frameStart _)
  · exact queuesGrow_of_ports rfl rfl
  · exact queuesGrow_closeWhere _ _ _
  · exact queuesGrow_closeWhere _ _ _
  · exact queuesGrow_of_ports rfl rfl
  · exact .refl _

theorem queuesGrow_act {s t : State} (h : Act s t) : QueuesGrow s t := by
  cases h with
  | framed _ | counted _ | raised _ | maintReq _ | recovery _ | noticeTaken | shadow _ _ _ | swap _ _ | commit _
  | cancel | enterGap _ _ _ | drain _ _ => exact queuesGrow_of_ports rfl rfl
  | firstFrame _ =>
    have hr : QueuesGrow s { s with resetAsserted := false } := queuesGrow_of_ports rfl rfl
    exact hr.trans (queuesGrow_frameStart _)
  | line p _ | presented p _ => exact queuesGrow_setPort (.refl _)
  | portReset p => exact queuesGrow_startReset p s
  | portResetEnd p => exact queuesGrow_endReset p s
  | frameStart _ _ => exact queuesGrow_frameStart s
  | gapMarkFirst _ => exact queuesGrow_gapMarkFirst s
  | slotEnd _ => exact queuesGrow_endSlot s
  | markFirst _ => exact queuesGrow_markFirst s
  | beat _ => exact queuesGrow_beatTime s
  | response status element => exact queuesGrow_takeResponse status element s
  | wedge _ => exact queuesGrow_takeWedge s
  | maintGrant => exact queuesGrow_of_windowAfter (grantMaint_spec s)
  | delivery p => exact queuesGrow_deliver p s
  | drops p => exact queuesGrow_takeDrops p s
  | taken p r _ => exact queuesGrow_takeRequest p r s
  | enable p =>
    refine queuesGrow_setPort ?_
    rw [enablePort_eq]
    exact .refl _
  | disable p => exact queuesGrow_disablePort p s
  | purgePort p => exact queuesGrow_purgePort p s
  | purgeAll => exact queuesGrow_closeWhere _ _ s
  | cleared =>
    refine queuesGrow_of_descends (Nat.le_refl _) fun p => ?_
    have hp : (clearAll s).port p = clearPort (s.port p) := port_mapPorts s (fun _ x => clearPort x) p
    unfold queues
    rw [hp]
    exact .refl _
  | setting number value _ _ => exact queuesGrow_settingWritten number value s
  | enterStopped _ _ =>
    have h := enterStopped_spec s
    exact queuesGrow_of_ports (by rw [h]) (by rw [h])

/-! ### The read data sent of a response -/

/-- The read data sent of the response of the oldest entry (R123). -/
theorem streamed_cons {x : PortRec} {e : Entry} {rest : List Entry} (h : x.queue = e :: rest) :
    streamed x = if e.marked = false ∧ (e.req.kind = .read ∨ e.req.kind = .linkedRead) then e.data else [] := by
  unfold streamed
  rw [h]
  dsimp only
  cases e.marked with
  | true => rw [if_pos rfl, if_neg fun h => nomatch h.1]
  | false => simp only [Bool.false_eq_true, if_false, true_and]

/-- What has been sent of an unmarked entry stays sent. -/
theorem streamed_of_kept {x y : PortRec} {d f : Entry} {rest rest' : List Entry} (hx : x.queue = d :: rest)
    (hy : y.queue = f :: rest') (h : Kept d f) (hm : f.marked = false) : ∃ more, streamed y = streamed x ++ more := by
  obtain ⟨more, hmore⟩ := h.data
  rw [streamed_cons hx, streamed_cons hy, h.kind, hm, h.marked hm]
  by_cases hk : d.req.kind = .read ∨ d.req.kind = .linkedRead
  · rw [if_pos ⟨rfl, hk⟩, if_pos ⟨rfl, hk⟩]
    exact ⟨more, hmore⟩
  · rw [if_neg fun h => hk h.2, if_neg fun h => hk h.2]
    exact ⟨[], rfl⟩

/-- A wedge fills what has been sent up with zeros. -/
theorem streamed_of_wedged {x : PortRec} {e f : Entry} {rest : List Entry} (hx : x.queue = e :: rest)
    (h : wedgedEntry e = some f) : ∃ n, streamed { x with queue := f :: rest } = streamed x ++ List.replicate n 0 := by
  obtain ⟨n, _, hreq, hm, hd⟩ := wedgedEntry_cases h
  rw [streamed_cons hx, streamed_cons (x := { x with queue := f :: rest }) rfl, hreq, hm, hd]
  split
  · exact ⟨n, rfl⟩
  · exact ⟨0, rfl⟩

theorem queue_of_head {q : List Entry} {e : Entry} (h : q.head? = some e) : ∃ rest, q = e :: rest := by
  cases q with
  | nil => cases h
  | cons d rest =>
    cases h
    exact ⟨rest, rfl⟩

/-- While an entry stays the oldest, unmarked, a command only adds to what has been sent of its response. -/
theorem streamed_grows {c : Instr} {s t : State} {p : Port} {e f : Entry} (hs : QueueInv s) (he : exec c s = .next t)
    (hse : (s.port p).queue.head? = some e) (htf : (t.port p).queue.head? = some f) (hid : f.id = e.id)
    (hm : f.marked = false) : ∃ more, streamed (t.port p) = streamed (s.port p) ++ more := by
  by_cases hc : c = .resetNAsserted
  · subst hc
    cases he
    rw [pinReset_port] at htf
    cases htf
  · obtain ⟨rest, hq⟩ := queue_of_head hse
    obtain ⟨rest', hq'⟩ := queue_of_head htf
    have hmem : e ∈ queues s p := by
      unfold queues
      rw [hq]
      exact List.mem_cons_self ..
    have hmem' : f ∈ queues t p := by
      unfold queues
      rw [hq']
      exact List.mem_cons_self ..
    obtain ⟨hN, _⟩ := (queueInv_iff s).1 hs
    obtain ⟨_, hgrow⟩ := acts_keep (P := QueuesGrow s) (fun _ _ ha hu => hu.trans (queuesGrow_act ha))
      (exec_reached hc s t he) (.refl s)
    obtain ⟨d, hd, hkept⟩ := hgrow p f hmem' (hid ▸ hN.below p e hmem)
    obtain rfl := eq_of_id hs hmem hd (hkept.id.symm.trans hid)
    exact streamed_of_kept hq hq' hkept hm

/-! ### The response of an entry -/

theorem response_of_ready {e : Entry} {v : Verdict} (h : e.state = .ready v) :
    e.response =
      some
        { status := .outcome v
          data := if e.req.kind = .read ∨ e.req.kind = .linkedRead then e.data else []
          firstBad := if isBurst e.req.kind ∧ v = .memerr then e.firstBad else none
          oldValue := if isAtomic e.req.kind ∧ v = .done then e.oldValue else none
          clamped := if e.req.kind = .boundedAdd ∧ v = .done then e.clamped else none } := by
  unfold Entry.response
  rw [h]

/-- Once the outcome is known, what has been sent is all of the response's data. -/
theorem response_data_eq_streamed {x : PortRec} {e : Entry} {rest : List Entry} {v : Verdict} {r : Response}
    (hq : x.queue = e :: rest) (hm : e.marked = false) (hs : e.state = .ready v) (hr : e.response = some r) :
    r.data = streamed x := by
  rw [response_of_ready hs] at hr
  obtain rfl := Option.some.inj hr
  rw [streamed_cons hq, hm]
  simp only [true_and]

theorem isBurst_iff (k : Kind) : isBurst k = true ↔ k = .read ∨ k = .write := by
  cases k <;> simp [isBurst]

theorem isAtomic_iff (k : Kind) : isAtomic k = true ↔ k = .swap ∨ k = .boundedAdd := by
  cases k <;> simp [isAtomic]

/-- The codes of an outcome (R117). -/
theorem statusCode_outcome (v : Verdict) :
    statusCode (.outcome v) =
      match v with
      | .done => (0, 0)
      | .noLink => (1, 1)
      | .width => (1, 2)
      | .memerr => (3, 1)
      | .timeout => (3, 2) := by
  cases v <;> rfl

/-- The phases of a refusal: no read data, and the place of its reason in the order of the checks (R117, R118). -/
theorem phases_refusedWith (why : RefuseReason) :
    (refusedWith why).phases =
      ([],
        { status := 2,
          reason := BitVec.ofNat 3 ([RefuseReason.size, .align, .beats, .range, .boundary, .closed].idxOf why + 1),
          firstBad := 0, clamped := 0 }) := by
  cases why <;> rfl

/-- The read-data phases of a response: the old value of an atomic update is one phase (R117). -/
theorem phases_data (r : Response) :
    r.phases.1 = r.data ++ (r.oldValue.map fun w => BitVec.ofNat 64 w.toNat).toList := by
  unfold Response.phases
  cases r.oldValue with
  | none => rfl
  | some w =>
    dsimp only
    rw [setWidth_word]
    rfl

theorem phases_clamped (r : Response) : r.phases.2.clamped = 1 ↔ r.clamped = some true := by
  unfold Response.phases
  dsimp only
  by_cases h : r.clamped = some true
  · simp [h]
  · simp [h]

/-- Settles O47: a queue entry only grows, in every happening of every command. -/
theorem responsesCarryTheirFields : Obligations.ResponsesCarryTheirFields := by
  refine ⟨fun x e rest v r => ⟨fun hq => ?_, fun hq => ⟨streamed_cons hq, response_data_eq_streamed hq, fun f hf => ?_⟩⟩,
    fun c s t p e f hs he hse htf hid hm => streamed_grows hs he hse htf hid hm,
    fun e v why => ⟨fun hs => ?_, fun hs => ⟨?_, phases_refusedWith why⟩, fun hs => ?_⟩⟩
  · unfold streamed
    rw [hq]
  · exact streamed_of_wedged hq hf
  · unfold Entry.response
    rcases hs with hs | hs | hs <;> rw [hs]
  · unfold Entry.response
    rw [hs]
    rfl
  · refine ⟨_, response_of_ready hs, rfl, rfl, ?_, ?_, rfl, phases_data _, statusCode_outcome v, rfl, phases_clamped _⟩
    · simp only [isBurst_iff]
    · simp only [isAtomic_iff]

end Sys2Proof.Proofs
end
